-- ==== Sys2Proof/Word.lean ====
section
/-! DEFINITION. The words of the part: bytes, block data, station numbers and sets of stations. -/

namespace Sys2Proof

/-- A byte of a sector, a frame or the client port. -/
abbrev Byte := BitVec 8

/-- The 128 data bytes of one version of a block, in ascending order (R21, R40). -/
abbrev Data := Vector Byte 128

/-- A station number, 0..7 (R97). -/
abbrev StationNo := Fin 8

/-- A set of stations: bit n stands for station n (R79). -/
abbrev StationSet := BitVec 8

/-- A set of the 64 offsets of a range. Offset i is bit 7 - (i mod 8) of byte i div 8 (R79),
which is bit i counted from the most significant end of the 64 bits. -/
abbrev OffsetSet := BitVec 64

/-- 128 bytes of 00h, the data of a read that serves none (R146). -/
def Data.zero : Data := Vector.replicate 128 0#8

end Sys2Proof
end

