-- ==== Sys2Proof/Syntax.lean ====
section
/-! DEFINITION. The commands of the part, one constructor for each row of spec/opcode_table.json,
with the operand types they carry. -/

namespace Sys2Proof

/-- A version (sequence, origin) (R1). -/
structure Version where
  seq    : BitVec 32
  origin : StationNo
  deriving DecidableEq, Repr

/-- The nil version (0, 0) (R2). -/
def Version.nil : Version := ⟨0#32, 0⟩

/-- The four phases that a HEARTBEAT may report (R79, R101). -/
inductive RunPhase where
  | listening | catchingUp | online | isolated
  deriving DecidableEq, Repr

/-- The outcome of an ACK; the holder version is present for STALE only (R79). -/
inductive AckOutcome where
  | stored
  | stale (holder : Version)
  | busy
  deriving DecidableEq, Repr

/-- What a BUSY frame refuses: a FETCH of a block or a DIGEST of a range (R79). -/
inductive RefusedRequest where
  | fetch (block : BitVec 16)
  | digest (range : Fin 64)
  deriving DecidableEq, Repr

/-- The levels of the strap pins at their sampling point (R97, R193). -/
structure Straps where
  stn : BitVec 3
  grp : BitVec 3
  hbi : BitVec 2
  deriving DecidableEq, Repr

/-- Which of the two held resets is released (R192). -/
inductive ResetSource where
  | powerOn | resetn
  deriving DecidableEq, Repr

/-- How the sector memory answers the read of one sector.
`stored n`: as the part last programmed the sector, with n symbols corrected.
`image raw corrected`: any other answer: the 146 bytes read, and bytes 0..137 of a codeword that may
lie near them. The error code's construction is not in the spec, so the search for the codeword
nearest to the bytes read is left to the answer; whether it lies within 4 symbols of them, and how
many were corrected, is judged by the part (`readBack`, log 5, log 6, DESIGN CHOICE). -/
inductive Reading where
  | stored (corrected : Fin 5)
  | image (raw : List Byte) (corrected : Option (List Byte))
  deriving DecidableEq, Repr

/-- A frame as received, before it is judged: the fields of R77 and the check received.
The body length field is the number of body bytes. -/
structure RawFrame where
  cls    : BitVec 2
  sender : BitVec 3
  target : BitVec 4
  kind   : BitVec 4
  body   : List Byte
  check  : BitVec 16
  deriving DecidableEq, Repr

/-- The commands, in the order of the table. TICK carries how many steps of the operation at the
media port the sector memory has answered since the last tick (R30, R194, log 20); SCAN and MARKING,
whether a frame was on the line as they ended, which matters where they end mount (R72, log 38);
RECEPTION_ERROR, the bits on the line from the start bit on (R89); and STATUS, whether it is the
rise of CSn that ends the transaction or, as it stands, its command byte (R178, R188, log 7). -/
inductive Instr where
  | powerOn
  | resetn (lowPeriods : Nat)
  | resetRelease (source : ResetSource) (straps : Straps)
  | tick (answered : Nat := 0)
  | scan (reading : Reading) (lineActive : Bool := false)
  | marking (programError : Bool) (lineActive : Bool := false)
  | mediaStepLimitExpiry
  | portFault
  | verify (programError : Bool) (reading : Reading)
  | writeCompletion
  | sectorReadCompletion (reading : Reading)
  | scrubReadCompletion (reading : Reading)
  | transmissionStart
  | arbitrationLost
  | readBackMismatch
  | transmissionCompletion
  | receptionError (bits : List Bool)
  | frameDiscarded (frame : RawFrame)
  | addressConflict (frame : RawFrame)
  | heartbeatReceived (sender : StationNo) (phase : RunPhase) (clock : BitVec 32)
      (groupSize geometry freeSpares stagingCount : Byte)
  | updateReceived (sender : StationNo) (block : BitVec 16) (version : Version) (attempt : Byte)
      (wanted : StationSet) (relay : Bool) (data : Data)
  | ackReceived (sender target : StationNo) (block : BitVec 16) (version : Version)
      (outcome : AckOutcome)
  | queryReceived (sender : StationNo) (block : BitVec 16) (attempt : Byte) (wanted : StationSet)
  | reportReceived (sender target : StationNo) (block : BitVec 16) (version : Version)
      (held : Bool)
  | fetchReceived (sender target : StationNo) (block : BitVec 16)
  | repairReceived (sender target : StationNo) (block : BitVec 16) (version : Version)
      (data : Data)
  | notHeldReceived (sender target : StationNo) (block : BitVec 16)
  | digestReceived (sender target : StationNo) (range : Fin 64) (versions : Vector Version 64)
  | rangeDoneReceived (sender target : StationNo) (range : Fin 64) (sent : Byte)
      (want : OffsetSet)
  | pushReceived (sender target : StationNo) (block : BitVec 16) (version : Version) (data : Data)
  | busyReceived (sender target : StationNo) (request : RefusedRequest)
  | notServingReceived (sender target : StationNo) (range : Fin 64)
  | heartbeatTimerExpiry
  | listenWindowExpiry
  | silenceWindowExpiry (peer : StationNo)
  | submitWrite (tag : Byte) (block : BitVec 16) (data : Data)
  | ackWindowExpiry (entry : Fin 8)
  | submitAbort (tag : Byte)
  | submitReadLocal (tag : Byte) (block : BitVec 16)
  | submitReadFresh (tag : Byte) (block : BitVec 16)
  | queryWindowExpiry (entry : Fin 4)
  | fetchWindowExpiry (entry : Fin 4)
  | readBackOffExpiry (entry : Fin 4)
  | fetchSlotWindowExpiry
  | fetchSlotBackOffExpiry
  | rangeWindowExpiry
  | pushDeadlineExpiry
  | digestBackoffExpiry
  | restExpiry
  | transactionOpen
  | badRequest (packet : List Byte)
  | take
  | takeEnd (clocked : Nat)
  | events
  | eventsEnd (clocked : Nat)
  | status (rise : Bool := false)
  | unknownCommand (bytes : List Byte)
  | restart
  | restartTakesEffect (straps : Straps)
  | arbitrationWon
  deriving DecidableEq, Repr

end Sys2Proof
end

