-- ==== Sys2Proof/Config.lean ====
section
/-! DEFINITION. What the part fixes (00_scope.md, FIXED QUANTITIES) and the one value the spec
leaves open. -/

namespace Sys2Proof.Config

/-- Logical blocks of the store. -/
def blocks : Nat := 4096

/-- Sectors of the sector memory: home 0..4095, spare 4096..4223. -/
def sectors : Nat := 4224

/-- The first spare sector. -/
def firstSpare : Nat := 4096

/-- Symbols the error code corrects in one sector (R40). -/
def correctionLimit : Nat := 4

/-- Relocations per sector write (R34). -/
def relocationLimit : Nat := 3

/-- Free spares at which SPARE_LOW is raised (R36). -/
def spareLow : Nat := 8

/-- Capacity of the staging queue (R21). -/
def stagingCapacity : Nat := 16

/-- Capacity of the scrub list (R49). -/
def scrubCapacity : Nat := 16

/-- Capacity of the repair list (R56). -/
def repairCapacity : Nat := 32

/-- Capacity of the out-queue (R80). -/
def outQueueCapacity : Nat := 16

/-- Capacity of the serve queue (R161). -/
def serveCapacity : Nat := 4

/-- Ordinary records of the event queue (R184). -/
def eventCapacity : Nat := 16

/-- Capacity of the completion queue, one record for each proposal and read entry (R182). -/
def completionCapacity : Nat := 12

/-- Attempts for acks, queries and one range at one server (R121, R141, R166). -/
def attempts : Nat := 4

/-- The media step limit in ticks (R30). -/
def stepLimit : Nat := 8

/-- The range window of the catch-up cursor in ticks (R166). -/
def rangeWindow : Nat := 256

/-- The geometry code of this part (R97). -/
def geometry : Byte := 0x41#8

/-- FREE VALUE (log 6). The 8 check symbols of the error code over bytes 0..137 of a sector. R40
gives their number and what they correct, and no construction, so the value is open. -/
opaque errorSymbols : List Byte → Vector Byte 8

end Sys2Proof.Config
end

