-- ==== Sys2Proof/Machine/State.lean ====
section
/-! DEFINITION. The state of one station, unit by unit as 00_scope.md (FUNCTIONAL UNITS) owns it,
the machine right after reset, and the reasons a step could stop. -/

namespace Sys2Proof.Machine

/-- Why the machine stops. No command of the table stops it: the part's own faults are the FAULTED
phase of its state (R116), so there is no constructor, and nothing raises one (safe). -/
inductive Fault where
  deriving DecidableEq, Repr

/-- Why a command is refused. -/
inductive Refusal where
  /-- A command that has no meaning yet; raised by an arm of exec only (safe). No arm uses it. -/
  | notModelled (mnemonic : String)
  deriving DecidableEq, Repr

/-! ## Phases, windows and the peer table -/

/-- The station's phase (R107). -/
inductive Phase where
  | mounting | listening | catchingUp | online | isolated | faulted
  deriving DecidableEq, Repr

/-- The fault reason (R107). -/
inductive FaultReason where
  | none | media | address
  deriving DecidableEq, Repr

/-- A window counted in ticks (R99): none is stopped, some n has n ticks left. At some 0 it is due
and waits for its expiry command (log 2, DESIGN CHOICE). -/
abbrev Window := Option Nat

/-- What the station knows of a number on the line (R102). -/
inductive PeerState where
  | unheard | present | silent | conflict
  deriving DecidableEq, Repr

/-- Why a peer entry is in CONFLICT (R102, R104). -/
inductive ConflictReason where
  | group | geometry
  deriving DecidableEq, Repr

/-- One entry of the peer table (R102) with its silence window (R105). A reported phase of none is
UNKNOWN. The own entry's reported clock is not stored: it is the version clock (Flags.lean). -/
structure PeerEntry where
  state    : PeerState
  reported : Option RunPhase
  clock    : BitVec 32
  reason   : Option ConflictReason
  silence  : Window
  deriving DecidableEq, Repr

/-- The value of a peer entry after each reset (R102). -/
def PeerEntry.reset : PeerEntry := ⟨.unheard, none, 0#32, none, none⟩

/-- The phase from which CATCHING_UP was entered (R111). -/
inductive CatchUpOrigin where
  | listening | isolated
  deriving DecidableEq, Repr

/-- The membership monitor (chapter 6). `heartbeatDue` marks an expiry of the heartbeat timer that
has not had its command yet; the timer itself has gone on (R100, log 2). -/
structure Membership where
  tick           : BitVec 32
  phase          : Phase
  faultReason    : FaultReason
  heartbeatTimer : Window
  heartbeatDue   : Bool
  listenWindow   : Window
  origin         : Option CatchUpOrigin
  peers          : Vector PeerEntry 8
  deriving DecidableEq, Repr

/-- The membership monitor after each reset (R99, R102, R107, chapter 6 RESET VALUES). -/
def Membership.reset : Membership where
  tick := 0#32
  phase := .mounting
  faultReason := .none
  heartbeatTimer := none
  heartbeatDue := false
  listenWindow := none
  origin := none
  peers := Vector.replicate 8 PeerEntry.reset

/-! ## Store manager -/

/-- The condition of a block (R7). -/
inductive Condition where
  | unwritten | clean | staged | lost
  deriving DecidableEq, Repr

/-- A block map entry (R6). -/
structure MapEntry where
  sector       : Option Nat
  mediaVersion : Version
  version      : Version
  condition    : Condition
  deriving DecidableEq, Repr

/-- The entry of a block never written (R7), which is what an unlisted block reads as. -/
def MapEntry.unwritten : MapEntry := ⟨none, .nil, .nil, .unwritten⟩

/-- The source of an offer (R9). -/
inductive Source where
  | localWrite | peer | relay | repair | push | scrub
  deriving DecidableEq, Repr

/-- The state of a staging entry (R21). -/
inductive StagingState where
  | waiting | writing
  deriving DecidableEq, Repr

/-- An entry of the staging queue (R21). -/
structure StagingEntry where
  block   : Nat
  version : Version
  data    : Data
  source  : Source
  state   : StagingState
  deriving DecidableEq, Repr

/-- The store manager (chapters 1 and 2). The map lists (block, entry) with blocks strictly rising
and no UNWRITTEN default entry listed. -/
structure StoreManager where
  clock   : BitVec 32
  map     : List (Nat × MapEntry)
  staging : List StagingEntry
  deriving DecidableEq, Repr

/-- The store manager after each reset (R8, R21, R61). -/
def StoreManager.reset : StoreManager := ⟨0#32, [], []⟩

/-! ## Media controller and mount sequencer -/

/-- Who asked for a read (R45); a scrub read is asked for by the media controller itself. -/
inductive Requester where
  | client | serve | cursor
  deriving DecidableEq, Repr

/-- A read request at the arbiter (R26, R45). `id` matches the report to the request (log 23). -/
structure ReadRequest where
  requester : Requester
  id        : Nat
  block     : Nat
  deriving DecidableEq, Repr

/-- Where a sector write stands (R32 to R35). `verifying sector previous`: the block copy is being
programmed to `sector` and read back; `previous` is the sector whose verify called for this
relocation and which is retired once the read-back is done (R33 step 3).
`retiring sector written`: the retire mark of step 3 is being programmed, and after it comes a
further relocation, called for by the verify of `sector`; where the pool has no spare for it the
write ends there as `written` (R33, R35).
`ended written final`: the write has ended and its completion is due. -/
inductive WriteStage where
  | verifying (sector : Nat) (previous : Option Nat)
  | retiring (sector : Nat) (written : Bool)
  | ended (written : Bool) (final : Option Nat)
  deriving DecidableEq, Repr

/-- A sector write with verify in progress: the content taken from the staging head (R23), its
stage, and the spares its relocations took, newest first (R33, R34). -/
structure WriteOp where
  block   : Nat
  version : Version
  data    : Data
  stage   : WriteStage
  taken   : List Nat
  deriving DecidableEq, Repr

/-- The operation in progress at the media port (R26). -/
inductive MediaOp where
  | scanRead (sector : Nat)
  | retireMark (sector : Nat)
  | sectorRead (request : ReadRequest) (sector : Nat) (expected : Version)
  | scrubRead (block sector : Nat) (expected : Version)
  | write (op : WriteOp)
  deriving DecidableEq, Repr

/-- What the part programs to a sector: a block copy or a retire mark (R40). -/
inductive SectorContent where
  | copy (block : Nat) (version : Version) (data : Data)
  | mark (number : Nat)
  deriving DecidableEq, Repr

/-- One step of an operation at the media port (R30, R194). -/
inductive MediaStep where
  | program (sector : Nat) (content : SectorContent)
  | read (sector : Nat)
  | mark (sector : Nat)
  deriving DecidableEq, Repr

/-- The media controller (chapters 2 and 3). `steps` are the step in progress of the operation at
the port and those that follow it before the operation's next command (log 20). `sectors` is what
the part last programmed to each sector; it is nonvolatile, lists (sector, content) with sectors
strictly rising, and an unlisted sector is erased (log 5, DESIGN CHOICE). -/
structure MediaController where
  port            : Option MediaOp
  steps           : List MediaStep
  stepWindow      : Window
  clientRequests  : List ReadRequest
  engineRequests  : List ReadRequest
  passedOver      : Nat
  spares          : List Nat
  retired         : List Nat
  sparesExhausted : Bool
  scrub           : List Nat
  sectors         : List (Nat × SectorContent)
  deriving DecidableEq, Repr

/-- The media controller after each reset, over the sector contents kept (R44, R60, R61). -/
def MediaController.reset (sectors : List (Nat × SectorContent)) : MediaController where
  port := none
  steps := []
  stepWindow := none
  clientRequests := []
  engineRequests := []
  passedOver := 0
  spares := []
  retired := []
  sparesExhausted := false
  scrub := []
  sectors := sectors

/-- The finding of one sector of the mount scan (R62). -/
inductive Finding where
  | blank
  | mark
  | copy (block : Nat) (version : Version) (corrected : Nat)
  | unreadable
  deriving DecidableEq, Repr

/-- The mount sequencer: the findings so far, sector 0 first, and the marking list (R61, R70). -/
structure MountSequencer where
  findings : List Finding
  marking  : List Nat
  deriving DecidableEq, Repr

/-- The mount sequencer at the start of mount (R61). -/
def MountSequencer.reset : MountSequencer := ⟨[], []⟩

/-! ## Line controller -/

/-- The body of a frame, by kind (R78, R79). -/
inductive Body where
  | heartbeat (phase : RunPhase) (clock : BitVec 32)
      (groupSize geometry freeSpares stagingCount : Byte)
  | update (block : BitVec 16) (version : Version) (attempt : Byte) (wanted : StationSet)
      (relay : Bool) (data : Data)
  | ack (block : BitVec 16) (version : Version) (outcome : AckOutcome)
  | query (block : BitVec 16) (attempt : Byte) (wanted : StationSet)
  | report (block : BitVec 16) (version : Version) (held : Bool)
  | fetch (block : BitVec 16)
  | repair (block : BitVec 16) (version : Version) (data : Data)
  | notHeld (block : BitVec 16)
  | digest (range : Fin 64) (versions : Vector Version 64)
  | rangeDone (range : Fin 64) (sent : Byte) (want : OffsetSet)
  | push (block : BitVec 16) (version : Version) (data : Data)
  | busy (request : RefusedRequest)
  | notServing (range : Fin 64)
  deriving DecidableEq, Repr

/-- A frame built by a station; a target of none addresses all (R77). -/
structure Frame where
  sender : StationNo
  target : Option StationNo
  body   : Body
  deriving DecidableEq, Repr

/-- The state of a frame in the out-queue (R80). The flag records a withdrawal asked for while the
frame was on the line (R83). -/
inductive FrameState where
  | unsent
  | arbitrated (withdrawn : Bool)
  | transmitted (withdrawn : Bool)
  deriving DecidableEq, Repr

/-- A frame in the out-queue. -/
structure QueuedFrame where
  id    : Nat
  frame : Frame
  state : FrameState
  deriving DecidableEq, Repr

/-- A frame held by its producer until the place arbiter gives it a place (R81, R82). -/
structure WaitingFrame where
  id    : Nat
  frame : Frame
  deriving DecidableEq, Repr

/-- The line controller (chapter 5). `waiting` is in order of waiting, longest first. `ignoring`:
the frame being received is one that was under way at the entry to LISTENING, and is ignored (R72,
R88, R96, log 38). `nextId` names frames and read requests (log 23). -/
structure LineController where
  queue       : List QueuedFrame
  waiting     : List WaitingFrame
  replacement : Option Frame
  discards    : BitVec 16
  ignoring    : Bool
  nextId      : Nat
  deriving DecidableEq, Repr

/-- The line controller after each reset (R96). -/
def LineController.reset : LineController := ⟨[], [], none, 0#16, false, 0⟩

/-! ## Write and read coordinators -/

/-- The result of a proposal or a read (R121, R141, R182). -/
inductive Result where
  | ok | superseded | noQuorum | aborted | unwritten | blockLost
  deriving DecidableEq, Repr

/-- The state of a proposal entry (R122). -/
inductive ProposalState where
  | free | sending | awaiting | finished
  deriving DecidableEq, Repr

/-- A proposal entry (R121). `frames` are its UPDATEs still waiting or queued. -/
structure Proposal where
  state   : ProposalState
  tag     : Byte
  block   : Nat
  version : Version
  data    : Data
  acks    : StationSet
  attempt : Nat
  window  : Window
  result  : Option Result
  winning : Option Version
  frames  : List Nat
  deriving DecidableEq, Repr

/-- A FREE proposal entry, result none and its other fields empty (R122). -/
def Proposal.empty : Proposal where
  state := .free
  tag := 0#8
  block := 0
  version := .nil
  data := Data.zero
  acks := 0#8
  attempt := 1
  window := none
  result := none
  winning := none
  frames := []

/-- The write coordinator: the proposal table (R121). -/
structure WriteCoordinator where
  proposals : Vector Proposal 8
  deriving DecidableEq, Repr

/-- The write coordinator after each reset (R122). -/
def WriteCoordinator.reset : WriteCoordinator := ⟨Vector.replicate 8 Proposal.empty⟩

/-- The state of a read entry (R141). -/
inductive ReadState where
  | free | reading | querySending | queryAwaiting | fetchSending | fetchAwaiting | finished
  deriving DecidableEq, Repr

/-- The mode of a read (R141). -/
inductive ReadMode where
  | localRead | fresh
  deriving DecidableEq, Repr

/-- One report seen: a version with a held flag (R141). -/
structure Report where
  version : Version
  held    : Bool
  deriving DecidableEq, Repr

/-- A read entry (R141). `candidates` is the list formed when collection ended (R150, R152),
`frames` its QUERYs and FETCHes still waiting or queued, `request` its media read. -/
structure ReadEntry where
  state       : ReadState
  tag         : Byte
  block       : Nat
  mode        : ReadMode
  reports     : Vector (Option Report) 8
  attempt     : Nat
  queryWindow : Window
  target      : Option StationNo
  tried       : StationSet
  candidates  : List StationNo
  fetchWindow : Window
  backOff     : Window
  result      : Option Result
  frames      : List Nat
  request     : Option Nat
  deriving DecidableEq, Repr

/-- A FREE read entry with its other fields emptied (R142). -/
def ReadEntry.empty : ReadEntry where
  state := .free
  tag := 0#8
  block := 0
  mode := .localRead
  reports := Vector.replicate 8 none
  attempt := 1
  queryWindow := none
  target := none
  tried := 0#8
  candidates := []
  fetchWindow := none
  backOff := none
  result := none
  frames := []
  request := none

/-- The read coordinator: the read table (R141). -/
structure ReadCoordinator where
  entries : Vector ReadEntry 4
  deriving DecidableEq, Repr

/-- The read coordinator after each reset (R142). -/
def ReadCoordinator.reset : ReadCoordinator := ⟨Vector.replicate 4 ReadEntry.empty⟩

/-! ## Repair engine -/

/-- The state of the fetch slot (R157). -/
inductive FetchState where
  | idle | peerWait | fetchSending | fetchAwaiting | backOff
  deriving DecidableEq, Repr

/-- The fetch slot (R157). `frames` are its FETCHes still waiting or queued. -/
structure FetchSlot where
  state   : FetchState
  block   : Option Nat
  target  : Option StationNo
  tried   : StationSet
  window  : Window
  backOff : Window
  frames  : List Nat
  deriving DecidableEq, Repr

/-- The fetch slot after each reset, and whenever it ends work on a block (R157, R160). -/
def FetchSlot.idle : FetchSlot := ⟨.idle, none, none, 0#8, none, none, []⟩

/-- What a peer asks of the serve slot (R161). -/
inductive ServeKind where
  | fetch (block : BitVec 16)
  | digest (range : Fin 64) (versions : Vector Version 64)
  deriving DecidableEq, Repr

/-- A request of the serve queue (R161). -/
structure ServeRequest where
  requester : StationNo
  kind      : ServeKind
  deriving DecidableEq, Repr

/-- What the serve slot waits for: nothing, a serve read, or an out-queue place for a frame, which
may be the last of its answer (R162). -/
inductive ServeStage where
  | ready
  | reading (id : Nat)
  | placing (id : Nat) (last : Bool)
  deriving DecidableEq, Repr

/-- The request being answered: offset reached, sent count and want set (R162, R164). -/
structure ServeJob where
  request : ServeRequest
  offset  : Nat
  sent    : Nat
  want    : OffsetSet
  stage   : ServeStage
  deriving DecidableEq, Repr

/-- The state of the catch-up cursor (R166). -/
inductive CursorState where
  | idle | digestSending | awaitingRange | pushing | digestBackoff | resting
  deriving DecidableEq, Repr

/-- The state of a pending push (R166). -/
inductive PushState where
  | notSent | sent | settled | refused
  deriving DecidableEq, Repr

/-- A pending push (R166). -/
structure PendingPush where
  block   : Nat
  version : Version
  state   : PushState
  deriving DecidableEq, Repr

/-- What the push being made waits for: nothing, a catch-up read, or an out-queue place (R170). -/
inductive CursorWork where
  | ready
  | reading (id : Nat)
  | placing (id : Nat)
  deriving DecidableEq, Repr

/-- The catch-up cursor (R166). `frames` are the DIGEST and PUSHes of the present attempt still
waiting or queued; `earlier`, PUSHes of ranges already done that were still queued when their ACKs
settled them (R172, log 22). -/
structure Cursor where
  state        : CursorState
  range        : Nat
  server       : Option StationNo
  attempt      : Nat
  tried        : StationSet
  counted      : OffsetSet
  pushes       : List PendingPush
  rangeWindow  : Window
  pushDeadline : Window
  backOff      : Window
  rest         : Window
  work         : CursorWork
  frames       : List Nat
  earlier      : List Nat
  deriving DecidableEq, Repr

/-- The cursor after each reset and when it is stopped (R166, R174). -/
def Cursor.idle : Cursor where
  state := .idle
  range := 0
  server := none
  attempt := 1
  tried := 0#8
  counted := 0#64
  pushes := []
  rangeWindow := none
  pushDeadline := none
  backOff := none
  rest := none
  work := .ready
  frames := []
  earlier := []

/-- The repair engine (chapter 9). -/
structure RepairEngine where
  list       : List Nat
  fetch      : FetchSlot
  serveQueue : List ServeRequest
  serve      : Option ServeJob
  cursor     : Cursor
  deriving DecidableEq, Repr

/-- The repair engine after each reset (R56, R157, R161, R162, R166). -/
def RepairEngine.reset : RepairEngine := ⟨[], .idle, [], none, .idle⟩

/-! ## Client port -/

/-- The last-submission outcome (R181). -/
inductive SubmitOutcome where
  | none | accepted | notReady | noQuorum | tableFull | busy | badTag | unknownTag | badBlock
  | badRequest | clockExhausted
  deriving DecidableEq, Repr

/-- A completion record (R182). -/
inductive CompletionRecord where
  | write (tag : Byte) (result : Result) (version : Version) (phase : Phase)
  | read (tag : Byte) (result : Result) (version : Version) (phase : Phase) (data : Data)
  deriving DecidableEq, Repr

/-- The kinds of event a unit raises (R184). -/
inductive EventKind where
  | peerHeard | peerSilent | peerConflict | addressConflict | phase | spareLow | sparesExhausted
  | blockLost | blockRepaired | blockUnrecovered | scrubFull | repairFull
  deriving DecidableEq, Repr

/-- The subject of an event (R184). -/
inductive Subject where
  | none
  | station (n : StationNo)
  | block (b : Nat)
  deriving DecidableEq, Repr

/-- How a block became LOST (R55, R69). -/
inductive LostBy where
  | read | write | mount
  deriving DecidableEq, Repr

/-- The detail of an event (R184). -/
inductive Detail where
  | none
  | conflict (reason : ConflictReason)
  | phase (p : Phase)
  | count (n : Nat)
  | lost (how : LostBy)
  deriving DecidableEq, Repr

/-- An ordinary event record (R184). -/
structure EventRecord where
  kind    : EventKind
  subject : Subject
  detail  : Detail
  repeats : Nat
  deriving DecidableEq, Repr

/-- The EVENTS_DROPPED record, or a pending count kept apart from it: the count and the kind of the
first event it counted (R185, R186). -/
structure Dropped where
  count : Nat
  first : Option EventKind
  deriving DecidableEq, Repr

/-- No event dropped. -/
def Dropped.zero : Dropped := ⟨0, none⟩

/-- The record an EVENTS transaction holds (R186). The EVENTS_DROPPED record's content is held
apart from the pending count of the drops that arrive meanwhile. -/
inductive EventHold where
  | marker
  | ordinary (record : EventRecord)
  | dropped (held pending : Dropped)
  deriving DecidableEq, Repr

/-- What a transaction fixed at its command byte (R183, R186, R188); `silent` before a command byte
or for a command without a response. -/
inductive Response where
  | silent
  | completion (record : Option CompletionRecord)
  | event (hold : EventHold)
  | statusBlock (bytes : List Byte)
  deriving DecidableEq, Repr

/-- The transaction on the client port (R178). `abandoned` is one that a power-on reset or a RESETn
cut short, or that was opened while the part was held in reset: SDO is released, and the bus ignored
until CSn next falls (R178). `ignored` is one opened in the interval of a RESTART, which returns FFh
in every byte (R189). -/
inductive Transaction where
  | closed
  | abandoned
  | ignored
  | opened (leading : List Byte) (response : Response)
  deriving DecidableEq, Repr

/-- The client port (chapter 10). -/
structure ClientPort where
  outcome     : SubmitOutcome
  tag         : Byte
  completions : List CompletionRecord
  events      : List EventRecord
  dropped     : Dropped
  transaction : Transaction
  deriving DecidableEq, Repr

/-- The client port after each reset, over the transaction left (R190). -/
def ClientPort.reset (t : Transaction) : ClientPort := ⟨.none, 0#8, [], [], .zero, t⟩

/-! ## The station -/

/-- Resets and straps (R97, R189, R192). -/
structure ResetControl where
  powerOnHeld : Bool
  resetnHeld  : Bool
  restarting  : Bool
  straps      : Straps
  deriving DecidableEq, Repr

/-- The state of one station, and the commands that wait for it, first in, first out. -/
structure State where
  control : ResetControl
  member  : Membership
  store   : StoreManager
  media   : MediaController
  mount   : MountSequencer
  line    : LineController
  writes  : WriteCoordinator
  reads   : ReadCoordinator
  repair  : RepairEngine
  client  : ClientPort
  pending : List Instr
  deriving DecidableEq, Repr

/-- The machine right after reset: every piece of state at its reset value, the straps as an
unconnected set reads (R193: station 0, G = 1, H = 8; log 4, DESIGN CHOICE), phase MOUNTING, and the
mount scan's read of sector 0 in progress (R193). -/
def State.reset : State where
  control := ⟨false, false, false, ⟨0#3, 0#3, 0#2⟩⟩
  member := .reset
  store := .reset
  media := { MediaController.reset [] with
    port := some (.scanRead 0), steps := [.read 0], stepWindow := some Config.stepLimit }
  mount := .reset
  line := .reset
  writes := .reset
  reads := .reset
  repair := .reset
  client := .reset .closed
  pending := []

end Sys2Proof.Machine
end

