-- ==== Sys2Proof/Machine/Ops.lean ====
section
/-! DEFINITION. Shared operations: updates of one unit, versions, sets, tables with keys, windows,
the peer table as others consult it, the block map and staging queue as others consult them, and
raising an event. -/

namespace Sys2Proof.Machine

/-! ## Updates of one unit -/

def State.onControl (s : State) (f : ResetControl → ResetControl) : State :=
  { s with control := f s.control }

def State.onMember (s : State) (f : Membership → Membership) : State :=
  { s with member := f s.member }

def State.onStore (s : State) (f : StoreManager → StoreManager) : State :=
  { s with store := f s.store }

def State.onMedia (s : State) (f : MediaController → MediaController) : State :=
  { s with media := f s.media }

def State.onMount (s : State) (f : MountSequencer → MountSequencer) : State :=
  { s with mount := f s.mount }

def State.onLine (s : State) (f : LineController → LineController) : State :=
  { s with line := f s.line }

def State.onWrites (s : State) (f : WriteCoordinator → WriteCoordinator) : State :=
  { s with writes := f s.writes }

def State.onReads (s : State) (f : ReadCoordinator → ReadCoordinator) : State :=
  { s with reads := f s.reads }

def State.onRepair (s : State) (f : RepairEngine → RepairEngine) : State :=
  { s with repair := f s.repair }

def State.onClient (s : State) (f : ClientPort → ClientPort) : State :=
  { s with client := f s.client }

def State.onFetch (s : State) (f : FetchSlot → FetchSlot) : State :=
  s.onRepair fun r => { r with fetch := f r.fetch }

def State.onCursor (s : State) (f : Cursor → Cursor) : State :=
  s.onRepair fun r => { r with cursor := f r.cursor }

def State.setServe (s : State) (job : Option ServeJob) : State :=
  s.onRepair fun r => { r with serve := job }

def State.proposal (s : State) (i : Fin 8) : Proposal := s.writes.proposals.get i

def State.setProposal (s : State) (i : Fin 8) (p : Proposal) : State :=
  s.onWrites fun w => ⟨w.proposals.set i p⟩

def State.readEntry (s : State) (i : Fin 4) : ReadEntry := s.reads.entries.get i

def State.setRead (s : State) (i : Fin 4) (e : ReadEntry) : State :=
  s.onReads fun r => ⟨r.entries.set i e⟩

/-! ## Versions (R1, R2) -/

/-- a is newer than b (R1): larger sequence, or equal sequences and larger origin. -/
def newer (a b : Version) : Bool :=
  decide (b.seq < a.seq) || (decide (a.seq = b.seq) && decide (b.origin < a.origin))

/-- A received version whose sequence is 0 is the nil version, whatever its origin (R2). -/
def received (v : Version) : Version :=
  if v.seq = 0#32 then .nil else v

/-! ## Sets of stations and of offsets -/

def hasStation (set : StationSet) (n : StationNo) : Bool := set.getLsbD n.val

def addStation (set : StationSet) (n : StationNo) : StationSet := set ||| (1#8 <<< n.val)

/-- How many stations the set names. -/
def stationCount (set : StationSet) : Nat := (List.finRange 8).countP (hasStation set)

/-- Offset i of the range is in the set (R79: offset 0 is the first bit sent). -/
def hasOffset (set : OffsetSet) (i : Nat) : Bool := set.getMsbD i

def addOffset (set : OffsetSet) (i : Nat) : OffsetSet := set ||| (1#64 <<< (63 - i))

/-- How many offsets the set names. -/
def offsetCount (set : OffsetSet) : Nat := (List.range 64).countP (hasOffset set)

/-! ## Tables with rising keys -/

/-- The value listed under a key. -/
def lookupKey {α : Type} : List (Nat × α) → Nat → Option α
  | [], _ => none
  | (k, v) :: rest, n => if k = n then some v else lookupKey rest n

/-- List a value under a key, keys staying in rising order. -/
def putKey {α : Type} : List (Nat × α) → Nat → α → List (Nat × α)
  | [], n, v => [(n, v)]
  | (k, w) :: rest, n, v =>
    if n < k then (n, v) :: (k, w) :: rest
    else if n = k then (n, v) :: rest
    else (k, w) :: putKey rest n v

/-- Take a key off the list. -/
def eraseKey {α : Type} : List (Nat × α) → Nat → List (Nat × α)
  | [], _ => []
  | (k, v) :: rest, n => if k = n then rest else (k, v) :: eraseKey rest n

/-- Add a number to a rising list without repeats. -/
def addSorted : List Nat → Nat → List Nat
  | [], n => [n]
  | k :: rest, n =>
    if n < k then n :: k :: rest else if n = k then k :: rest else k :: addSorted rest n

/-! ## Windows (R99) -/

/-- One rise of the tick count for a window. -/
def Window.count (w : Window) : Window := w.map (· - 1)

/-- The window has run its n ticks and its expiry is due. -/
def Window.due (w : Window) : Bool := w == some 0

/-! ## Phases -/

/-- The four phases in which the station takes part in the line (R118). -/
def Phase.running : Phase → Bool
  | .listening | .catchingUp | .online | .isolated => true
  | .mounting | .faulted => false

/-- The phases in which the serve slot and the fetch slot work (R118). -/
def Phase.serving : Phase → Bool
  | .catchingUp | .online | .isolated => true
  | .mounting | .listening | .faulted => false

/-- A running phase as a HEARTBEAT or a peer entry names it. -/
def Phase.run : Phase → Option RunPhase
  | .listening => some .listening
  | .catchingUp => some .catchingUp
  | .online => some .online
  | .isolated => some .isolated
  | .mounting | .faulted => none

/-- The part is not held in reset (R192). -/
def State.released (s : State) : Bool := !s.control.powerOnHeld && !s.control.resetnHeld

/-- The part is neither held in reset nor waiting for a RESTART to take effect, so its units act
(R189, R192). -/
def State.awake (s : State) : Bool := s.released && !s.control.restarting

/-- The units act and the station takes part in the line. -/
def State.live (s : State) : Bool := s.awake && s.member.phase.running

/-! ## Straps (R97, R98) -/

/-- The own station number. -/
def State.own (s : State) : StationNo := ⟨s.control.straps.stn.toNat, s.control.straps.stn.isLt⟩

/-- G, the binary value of the GRP pins plus one. -/
def State.groupSize (s : State) : Nat := s.control.straps.grp.toNat + 1

/-- Q = floor(G/2) + 1. -/
def State.quorum (s : State) : Nat := s.groupSize / 2 + 1

/-- H: HBI 00 gives 8, 01 gives 16, 10 gives 32, 11 gives 64 ticks. -/
def State.interval (s : State) : Nat := 8 * 2 ^ s.control.straps.hbi.toNat

/-! ## The peer table as consulted -/

def State.peer (s : State) (n : StationNo) : PeerEntry := s.member.peers.get n

def State.setPeer (s : State) (n : StationNo) (e : PeerEntry) : State :=
  s.onMember fun m => { m with peers := m.peers.set n e }

/-- n is a peer, not the own number, and is PRESENT. -/
def State.presentPeer (s : State) (n : StationNo) : Bool :=
  decide (n ≠ s.own) && decide ((s.peer n).state = .present)

/-- The visible count: PRESENT peers plus the station itself (R98). -/
def State.visible (s : State) : Nat := (List.finRange 8).countP s.presentPeer + 1

/-- n is a PRESENT peer that reports the phase p. -/
def State.peerReports (s : State) (n : StationNo) (p : RunPhase) : Bool :=
  s.presentPeer n && decide ((s.peer n).reported = some p)

/-! ## The block map and the staging queue as consulted -/

/-- The map entry of a block; an unlisted block is UNWRITTEN. -/
def State.entryOf (s : State) (b : Nat) : MapEntry := (lookupKey s.store.map b).getD .unwritten

/-- Record a map entry, an UNWRITTEN one by taking the block off the list. -/
def State.setEntry (s : State) (b : Nat) (e : MapEntry) : State :=
  s.onStore fun st =>
    { st with map := if e = .unwritten then eraseKey st.map b else putKey st.map b e }

/-- The station holds the block: CLEAN or STAGED (R20). -/
def MapEntry.held (e : MapEntry) : Bool :=
  decide (e.condition = .clean) || decide (e.condition = .staged)

/-- The staging entry b's data is served from: the newest for the block (R24). -/
def State.newestStaging (s : State) (b : Nat) : Option StagingEntry :=
  (s.store.staging.filter fun e => e.block = b).getLast?

/-- The data of a STAGED block (R24). A STAGED block has a staging entry (R7); the zero data stands
for the case that cannot arise (log 27). -/
def State.stagedData (s : State) (b : Nat) : Data :=
  match s.newestStaging b with
  | some e => e.data
  | none => Data.zero

/-- The staging head is WAITING (R27). -/
def State.headWaiting (s : State) : Bool :=
  match s.store.staging with
  | [] => false
  | e :: _ => decide (e.state = .waiting)

/-- What the part last programmed to a sector; none reads as erased (log 5). -/
def State.sectorContent (s : State) (n : Nat) : Option SectorContent :=
  lookupKey s.media.sectors n

/-- A sector joins the retired set (R37). -/
def State.retire (s : State) (n : Nat) : State :=
  s.onMedia fun m => { m with retired := addSorted m.retired n }

/-! ## The media port and its steps (R26, R30, log 20) -/

/-- What the sectors were last programmed with once a step has started (R32, R33, R70, log 5). -/
def MediaStep.programmed (sectors : List (Nat × SectorContent)) :
    MediaStep → List (Nat × SectorContent)
  | .program n c => putKey sectors n c
  | .mark n => putKey sectors n (.mark n)
  | .read _ => sectors

/-- These are the steps to come: the first starts, with a step limit of its own (R30). -/
def MediaController.run (m : MediaController) : List MediaStep → MediaController
  | [] => { m with steps := [], stepWindow := none }
  | step :: rest =>
    { m with steps := step :: rest, stepWindow := some Config.stepLimit,
             sectors := step.programmed m.sectors }

/-- An operation is at the media port, with these steps before its next command (R26). -/
def State.usePort (s : State) (op : MediaOp) (steps : List MediaStep) : State :=
  s.onMedia fun m => MediaController.run { m with port := some op } steps

/-- A step of an operation is in progress at the port. -/
def State.stepInProgress (s : State) : Bool := !s.media.steps.isEmpty

/-- The operation in progress ends and the port is free (R26). -/
def State.freePort (s : State) : State :=
  s.onMedia fun m => { m with port := none, steps := [], stepWindow := none }

/-! ## The version clock and identities -/

/-- The clock becomes the larger of its own value and a sequence (R4). -/
def State.learn (s : State) (seq : BitVec 32) : State :=
  s.onStore fun st => { st with clock := if st.clock < seq then seq else st.clock }

/-- A new identity for a frame or a read request (log 23). -/
def State.bumpId (s : State) : State := s.onLine fun l => { l with nextId := l.nextId + 1 }

/-! ## Raising an event (R184 to R186) -/

/-- Step 1 of R184: the first record of the same kind and subject takes the event. -/
def mergeEvent (kind : EventKind) (subject : Subject) (detail : Detail) :
    List EventRecord → Option (List EventRecord)
  | [] => none
  | r :: rest =>
    if r.kind = kind ∧ r.subject = subject then
      some ({ r with detail := detail, repeats := min (r.repeats + 1) 255 } :: rest)
    else (mergeEvent kind subject detail rest).map (r :: ·)

/-- An EVENTS transaction holds the head ordinary record (R186). -/
def ClientPort.holdsHead (c : ClientPort) : Bool :=
  match c.transaction with
  | .opened _ (.event (.ordinary _)) => true
  | _ => false

/-- A drop is counted (R185). -/
def Dropped.add (d : Dropped) (kind : EventKind) : Dropped :=
  if d.count = 0 then ⟨1, some kind⟩ else ⟨min (d.count + 1) 255, d.first⟩

/-- Step 3 of R184: the event is counted in EVENTS_DROPPED, or in the pending count while an EVENTS
transaction holds that record (R186). -/
def ClientPort.dropEvent (c : ClientPort) (kind : EventKind) : ClientPort :=
  match c.transaction with
  | .opened leading (.event (.dropped held waiting)) =>
    { c with transaction := .opened leading (.event (.dropped held (waiting.add kind))) }
  | _ => { c with dropped := c.dropped.add kind }

/-- The event queue receives an event (R184). A held head record takes part in no merge (R186). -/
def ClientPort.raise (c : ClientPort) (kind : EventKind) (subject : Subject) (detail : Detail) :
    ClientPort :=
  let kept := if c.holdsHead then 1 else 0
  match mergeEvent kind subject detail (c.events.drop kept) with
  | some rest => { c with events := c.events.take kept ++ rest }
  | none =>
    if c.events.length < Config.eventCapacity then
      { c with events := c.events ++ [⟨kind, subject, detail, 1⟩] }
    else c.dropEvent kind

/-- A unit raises an event. -/
def State.raise (s : State) (kind : EventKind) (subject : Subject) (detail : Detail) : State :=
  s.onClient fun c => c.raise kind subject detail

end Sys2Proof.Machine
end

