-- ==== Sys2Proof/Machine/Operands.lean ====
section
/-! DEFINITION. What crosses a boundary, read and written: the 16-bit check, the sector format and
the outcomes of a sector read, the frames of the peer line with their tests, and the client's
request packets. Multi-byte fields are most significant byte first (00_scope.md, LAYOUTS). -/

namespace Sys2Proof.Machine

/-! ## Bits, bytes and the check -/

/-- The bits of a field, most significant first (R77). -/
def bitsOf {w : Nat} (v : BitVec w) : List Bool := (List.range w).map v.getMsbD

/-- The bits of bytes in ascending order (R77). -/
def bitsOfBytes (bytes : List Byte) : List Bool := bytes.flatMap bitsOf

/-- One bit into the cyclic check with generator x^16 + x^12 + x^5 + 1 (R40, R77). -/
def checkBit (c : BitVec 16) (b : Bool) : BitVec 16 :=
  if c.msb != b then (c <<< 1) ^^^ 0x1021#16 else c <<< 1

/-- The cyclic check of a run of bits, starting from FFFFh (R40, R77). The result is not inverted
(log 39). -/
def checkOf (bits : List Bool) : BitVec 16 := bits.foldl checkBit 0xFFFF#16

def bytes16 (v : BitVec 16) : List Byte := [v.extractLsb' 8 8, v.extractLsb' 0 8]

def bytes32 (v : BitVec 32) : List Byte :=
  [v.extractLsb' 24 8, v.extractLsb' 16 8, v.extractLsb' 8 8, v.extractLsb' 0 8]

def bytes64 (v : BitVec 64) : List Byte :=
  bytes32 (v.extractLsb' 32 32) ++ bytes32 (v.extractLsb' 0 32)

def word16 (a b : Byte) : BitVec 16 := a ++ b

def word32 (a b c d : Byte) : BitVec 32 := a ++ b ++ c ++ d

/-- A small number as a byte. -/
def byteOf (n : Nat) : Byte := BitVec.ofNat 8 n

/-- 128 bytes as block data; none for any other number of bytes. -/
def dataOf (bytes : List Byte) : Option Data :=
  if h : bytes.toArray.size = 128 then some ⟨bytes.toArray, h⟩ else none

/-- The 5 bytes of a version: sequence, then origin (R79, R191). -/
def versionBytes (v : Version) : List Byte := bytes32 v.seq ++ [byteOf v.origin.val]

/-- A version from its 5 bytes; none when the origin byte is no station number (R79). -/
def versionOf (a b c d o : Byte) : Option Version :=
  if h : o.toNat < 8 then some ⟨word32 a b c d, ⟨o.toNat, h⟩⟩ else none

/-! ## The sector format and the outcomes of a read -/

/-- The eight header bytes of a sector (R40). -/
def SectorContent.header : SectorContent → List Byte
  | .copy b v _ =>
    [0x01#8, byteOf v.origin.val] ++ bytes16 (BitVec.ofNat 16 b) ++ bytes32 v.seq
  | .mark n => [0x02#8, 0x00#8] ++ bytes16 (BitVec.ofNat 16 n) ++ bytes32 0#32

/-- The 128 data bytes of a sector (R40): a retire mark's are all 00h. -/
def SectorContent.data : SectorContent → Data
  | .copy _ _ d => d
  | .mark _ => Data.zero

/-- Bytes 0..137 of a sector: header, header check and data (R40). The bytes of the header enter the
check in ascending order, each most significant bit first, and the result is not inverted: the
model's choice, which R40 leaves open (log 39). -/
def SectorContent.body (c : SectorContent) : List Byte :=
  c.header ++ bytes16 (checkOf (bitsOfBytes c.header)) ++ c.data.toList

/-- The 146 bytes of the codeword of bytes 0..137; the error-code symbols are the free value of
Config (R40, log 6). -/
def codeword (bytes : List Byte) : List Byte := bytes ++ (Config.errorSymbols bytes).toList

/-- The 146 bytes the part programs to a sector. -/
def SectorContent.image (c : SectorContent) : List Byte := codeword c.body

/-- The symbols of a sector read in error against the codeword of the given bytes (R40). -/
def symbolErrors (raw bytes : List Byte) : Nat :=
  (List.zipWith (fun a b => decide (a ≠ b)) raw (codeword bytes)).count true

/-- The error code corrects a sector read to these bytes 0..137: at most 4 of its 146 symbols are in
error (R40, R41). -/
def corrects (raw bytes : List Byte) : Bool :=
  decide (raw.length = 146) && decide (bytes.length = 138)
    && decide (symbolErrors raw bytes ≤ Config.correctionLimit)

/-- A sector as the media controller has it after the test for the erased state and the decoding
(R41): bytes 0..137 corrected, and the number of symbols corrected. -/
inductive ReadBack where
  | blank
  | undecodable
  | decoded (bytes : List Byte) (corrected : Nat)
  deriving DecidableEq, Repr

/-- The decoding of a sector read (R41): the first of these bytes 0..137 that the code corrects it
to, with the symbols corrected. -/
def decodeTo (raw : List Byte) (candidates : List (List Byte)) : ReadBack :=
  match candidates.find? (corrects raw) with
  | some bytes => .decoded bytes (symbolErrors raw bytes)
  | none => .undecodable

/-- The test for the erased state and the decoding (R41). The codeword nearest to the bytes read is
looked for at what the part programmed, at the bytes themselves, and where the answer points (log
6). -/
def readBack (content : Option SectorContent) : Reading → ReadBack
  | .stored n =>
    match content with
    | none => .blank
    | some c => .decoded c.body n.val
  | .image raw corrected =>
    if raw.length = 146 ∧ raw.all (· == 0xFF#8) then .blank
    else
      decodeTo raw
        ((content.map SectorContent.body).toList ++ [raw.take 138] ++ corrected.toList)

/-- The header check over bytes 0..7 matches bytes 8..9 (R40), with the order of bits that the model
chooses (log 39). -/
def headerCheck (bytes : List Byte) : Bool :=
  bytes16 (checkOf (bitsOfBytes (bytes.take 8))) == (bytes.drop 8).take 2

/-- A readable header (R41). -/
inductive Header where
  | copy (origin : Byte) (block : BitVec 16) (seq : BitVec 32)
  | mark
  deriving DecidableEq, Repr

/-- The header of decoded bytes, if the check matches and the kind is 01h or 02h (R41). -/
def headerOf (bytes : List Byte) : Option Header :=
  if headerCheck bytes then
    match bytes with
    | k :: o :: n1 :: n0 :: s3 :: s2 :: s1 :: s0 :: _ =>
      if k = 0x01#8 then some (.copy o (word16 n1 n0) (word32 s3 s2 s1 s0))
      else if k = 0x02#8 then some .mark
      else none
    | _ => none
  else none

/-- The result of a verify (R32). -/
inductive VerifyResult where
  | good | weak | failed
  deriving DecidableEq, Repr

/-- The verify of a sector just written (R32). -/
def verifyResult (programError : Bool) (r : ReadBack) : VerifyResult :=
  if programError then .failed
  else
    match r with
    | .decoded bytes n =>
      if headerCheck bytes then (if n = 0 then .good else .weak) else .failed
    | _ => .failed

/-- The outcome of a sector read, with the corrected data of a readable one (R46). -/
inductive ReadOutcome where
  | clean (data : Data)
  | corrected (data : Data)
  | weak (data : Data)
  | unreadable
  deriving DecidableEq, Repr

/-- The data bytes of decoded bytes 0..137. -/
def decodedData (bytes : List Byte) : Data := (dataOf (bytes.drop 10)).getD Data.zero

/-- The outcome of the read of block b at an expected version (R46). -/
def readOutcome (b : Nat) (expected : Version) : ReadBack → ReadOutcome
  | .decoded bytes n =>
    match headerOf bytes with
    | some (.copy origin block seq) =>
      if block.toNat = b ∧ seq = expected.seq ∧ origin.toNat = expected.origin.val then
        if n = 0 then .clean (decodedData bytes)
        else if n = 1 then .corrected (decodedData bytes)
        else .weak (decodedData bytes)
      else .unreadable
    | _ => .unreadable
  | _ => .unreadable

/-- The data of a readable outcome. -/
def ReadOutcome.data : ReadOutcome → Option Data
  | .clean d | .corrected d | .weak d => some d
  | .unreadable => none

/-- The finding of a mount scan read (R62). -/
def findingOf : ReadBack → Finding
  | .blank => .blank
  | .undecodable => .unreadable
  | .decoded bytes n =>
    match headerOf bytes with
    | some .mark => .mark
    | some (.copy origin block seq) =>
      if h : origin.toNat < 8 then
        if block.toNat < Config.blocks ∧ seq ≠ 0#32 then
          .copy block.toNat ⟨seq, ⟨origin.toNat, h⟩⟩ n
        else .unreadable
      else .unreadable
    | none => .unreadable

/-! ## Frames -/

/-- The class of a frame (R78): an UPDATE is class 3 when its relay flag is set. -/
def Body.cls : Body → Nat
  | .ack .. | .report .. | .notHeld .. | .busy .. | .notServing .. => 0
  | .heartbeat .. => 1
  | .update _ _ _ _ relay _ => if relay then 3 else 2
  | .query .. | .fetch .. | .digest .. => 2
  | .repair .. | .rangeDone .. | .push .. => 3

/-- The kind code (R78). -/
def Body.kind : Body → Nat
  | .heartbeat .. => 1
  | .update .. => 2
  | .ack .. => 3
  | .query .. => 4
  | .report .. => 5
  | .fetch .. => 6
  | .repair .. => 7
  | .notHeld .. => 8
  | .digest .. => 9
  | .rangeDone .. => 10
  | .push .. => 11
  | .busy .. => 12
  | .notServing .. => 13

/-- The kinds whose target is 15, all stations (R78). -/
def Body.broadcast : Body → Bool
  | .heartbeat .. | .update .. | .query .. => true
  | _ => false

/-- The phase code of a HEARTBEAT (R79). -/
def runPhaseCode : RunPhase → Byte
  | .listening => 1#8
  | .catchingUp => 2#8
  | .online => 3#8
  | .isolated => 4#8

def runPhaseOf (c : Byte) : Option RunPhase :=
  if c = 1#8 then some .listening
  else if c = 2#8 then some .catchingUp
  else if c = 3#8 then some .online
  else if c = 4#8 then some .isolated
  else none

def flagByte (b : Bool) : Byte := if b then 0x01#8 else 0x00#8

def flagOf (b : Byte) : Option Bool :=
  if b = 0x00#8 then some false else if b = 0x01#8 then some true else none

/-- The attempt field holds 1..4 (R79). -/
def attemptOk (a : Byte) : Bool := decide (1 ≤ a.toNat) && decide (a.toNat ≤ 4)

def rangeOf (b : Byte) : Option (Fin 64) := if h : b.toNat < 64 then some ⟨b.toNat, h⟩ else none

/-- The body bytes of a frame (R79). -/
def Body.bytes : Body → List Byte
  | .heartbeat phase clock g geometry spares staging =>
    runPhaseCode phase :: (bytes32 clock ++ [g, geometry, spares, staging])
  | .update b v attempt wanted relay d =>
    bytes16 b ++ versionBytes v ++ [attempt, wanted, flagByte relay] ++ d.toList
  | .ack b v .stored => bytes16 b ++ versionBytes v ++ [1#8]
  | .ack b v (.stale h) => bytes16 b ++ versionBytes v ++ [2#8] ++ versionBytes h
  | .ack b v .busy => bytes16 b ++ versionBytes v ++ [3#8]
  | .query b attempt wanted => bytes16 b ++ [attempt, wanted]
  | .report b v held => bytes16 b ++ versionBytes v ++ [flagByte held]
  | .fetch b => bytes16 b
  | .repair b v d => bytes16 b ++ versionBytes v ++ d.toList
  | .notHeld b => bytes16 b
  | .digest r vs => byteOf r.val :: vs.toList.flatMap versionBytes
  | .rangeDone r sent want => [byteOf r.val, sent] ++ bytes64 want
  | .push b v d => bytes16 b ++ versionBytes v ++ d.toList
  | .busy (.fetch b) => 6#8 :: bytes16 b
  | .busy (.digest r) => [9#8, 0#8, byteOf r.val]
  | .notServing r => [byteOf r.val]

/-- The versions of a DIGEST, 5 bytes each. -/
def versionsOf : List Byte → Option (List Version)
  | [] => some []
  | a :: b :: c :: d :: o :: rest =>
    match versionOf a b c d o, versionsOf rest with
    | some v, some vs => some (v :: vs)
    | _, _ => none
  | _ => none

/-- 64 versions; none for any other number. -/
def vector64 (vs : List Version) : Option (Vector Version 64) :=
  if h : vs.toArray.size = 64 then some ⟨vs.toArray, h⟩ else none

/-- The fields of a body of the given kind: the length and every coded field of R79 are tested. -/
def bodyOf (kind : Nat) (bytes : List Byte) : Option Body :=
  match kind, bytes with
  | 1, [p, c3, c2, c1, c0, g, geometry, spares, staging] =>
    (runPhaseOf p).map fun phase =>
      .heartbeat phase (word32 c3 c2 c1 c0) g geometry spares staging
  | 2, b1 :: b0 :: s3 :: s2 :: s1 :: s0 :: o :: attempt :: wanted :: relay :: rest =>
    match versionOf s3 s2 s1 s0 o, flagOf relay, dataOf rest with
    | some v, some r, some d =>
      if attemptOk attempt then some (.update (word16 b1 b0) v attempt wanted r d) else none
    | _, _, _ => none
  | 3, b1 :: b0 :: s3 :: s2 :: s1 :: s0 :: o :: outcome :: rest =>
    match versionOf s3 s2 s1 s0 o with
    | none => none
    | some v =>
      match rest with
      | [] =>
        if outcome = 1#8 then some (.ack (word16 b1 b0) v .stored)
        else if outcome = 3#8 then some (.ack (word16 b1 b0) v .busy)
        else none
      | [h3, h2, h1, h0, ho] =>
        if outcome = 2#8 then
          (versionOf h3 h2 h1 h0 ho).map fun h => .ack (word16 b1 b0) v (.stale h)
        else none
      | _ => none
  | 4, [b1, b0, attempt, wanted] =>
    if attemptOk attempt then some (.query (word16 b1 b0) attempt wanted) else none
  | 5, [b1, b0, s3, s2, s1, s0, o, held] =>
    match versionOf s3 s2 s1 s0 o, flagOf held with
    | some v, some h => some (.report (word16 b1 b0) v h)
    | _, _ => none
  | 6, [b1, b0] => some (.fetch (word16 b1 b0))
  | 7, b1 :: b0 :: s3 :: s2 :: s1 :: s0 :: o :: rest =>
    match versionOf s3 s2 s1 s0 o, dataOf rest with
    | some v, some d => some (.repair (word16 b1 b0) v d)
    | _, _ => none
  | 8, [b1, b0] => some (.notHeld (word16 b1 b0))
  | 9, r :: rest =>
    match rangeOf r, (versionsOf rest).bind vector64 with
    | some range, some vs => some (.digest range vs)
    | _, _ => none
  | 10, [r, sent, w7, w6, w5, w4, w3, w2, w1, w0] =>
    (rangeOf r).map fun range =>
      .rangeDone range sent (word32 w7 w6 w5 w4 ++ word32 w3 w2 w1 w0)
  | 11, b1 :: b0 :: s3 :: s2 :: s1 :: s0 :: o :: rest =>
    match versionOf s3 s2 s1 s0 o, dataOf rest with
    | some v, some d => some (.push (word16 b1 b0) v d)
    | _, _ => none
  | 12, [k, b1, b0] =>
    if k = 6#8 then some (.busy (.fetch (word16 b1 b0)))
    else if k = 9#8 then
      if b1 = 0#8 then (rangeOf b0).map fun range => .busy (.digest range) else none
    else none
  | 13, [r] => (rangeOf r).map .notServing
  | _, _ => none

/-- The 22 header bits, from class to body length (R77). -/
def headerBits (f : RawFrame) : List Bool :=
  bitsOf f.cls ++ bitsOf f.sender ++ bitsOf f.target ++ bitsOf f.kind
    ++ bitsOf (BitVec.ofNat 9 f.body.length)

/-- The check computed over the header bits and the body in the order of R77, not inverted (log 39).
-/
def computedCheck (f : RawFrame) : BitVec 16 :=
  checkOf (headerBits f ++ bitsOfBytes f.body)

/-- The frame on the line, field by field (R77 to R79). -/
def Frame.raw (f : Frame) : RawFrame :=
  let unchecked : RawFrame :=
    { cls := BitVec.ofNat 2 f.body.cls
      sender := BitVec.ofNat 3 f.sender.val
      target := match f.target with
        | some n => BitVec.ofNat 4 n.val
        | none => 15#4
      kind := BitVec.ofNat 4 f.body.kind
      body := f.body.bytes
      check := 0#16 }
  { unchecked with check := computedCheck unchecked }

/-- Bit stuffing (R76): after five equal bits one bit of the opposite value, which begins the next
run. Nothing follows the last bit of the check, with which the frame ends (R77). -/
def stuffFrom (last : Bool) (run : Nat) : List Bool → List Bool
  | [] => []
  | b :: rest =>
    if run = 5 then
      (!last) :: b :: stuffFrom b (if b = !last then 2 else 1) rest
    else b :: stuffFrom b (if b = last then run + 1 else 1) rest

/-- The bits a station drives for a frame: the dominant start bit (0), the fields and the check,
stuffed (R76, R77). -/
def lineBits (f : RawFrame) : List Bool :=
  false :: stuffFrom false 1 (headerBits f ++ bitsOfBytes f.body ++ bitsOf f.check)

/-- A field of w bits from a place in a run of bits, most significant first (R77). -/
def fieldAt (bits : List Bool) (start w : Nat) : BitVec w :=
  BitVec.ofNat w (((bits.drop start).take w).foldl (fun n b => 2 * n + b.toNat) 0)

/-- The number of body bytes that the 22 header bits give (R77). -/
def bodyLengthOf (bits : List Bool) : Nat := (fieldAt bits 13 9).toNat

/-- The bits read are a frame's last: the 22 header bits, the body bytes that they give, and the 16
check bits (R89). -/
def frameWhole (bits : List Bool) : Bool :=
  decide (22 ≤ bits.length) && decide (bits.length = 22 + 8 * bodyLengthOf bits + 16)

/-- The fields of a whole frame's bits (R77). -/
def rawOf (bits : List Bool) : RawFrame where
  cls := fieldAt bits 0 2
  sender := fieldAt bits 2 3
  target := fieldAt bits 5 4
  kind := fieldAt bits 9 4
  body := (List.range (bodyLengthOf bits)).map fun i => fieldAt bits (22 + 8 * i) 8
  check := fieldAt bits (22 + 8 * bodyLengthOf bits) 16

/-- What a receiver makes of the bits on the line: a whole frame, a reception broken off before its
last check bit, or one that has not ended yet. -/
inductive LineReading where
  | frame (raw : RawFrame)
  | broken
  | unfinished
  deriving DecidableEq, Repr

/-- A receiver reads on, `read` being the bits it has kept, `last` the last bit on the line and
`run` the number of equal bits that end there: after five equal bits it removes the stuff bit, which
begins the next run, and a sixth equal bit is a stuff error (R76, R89). A line that falls quiet
inside a frame shows sixteen recessive bits, of which the sixth at the latest is one. -/
def readFrom (read : List Bool) (last : Bool) (run : Nat) : List Bool → LineReading
  | [] => .unfinished
  | b :: rest =>
    if run = 5 then (if b = last then .broken else readFrom read b 1 rest)
    else
      let read' := read ++ [b]
      if frameWhole read' then .frame (rawOf read')
      else readFrom read' b (if b = last then run + 1 else 1) rest

/-- The reception of a frame, from its dominant start bit on (R77, R89). -/
def readLine : List Bool → LineReading
  | false :: rest => readFrom [] false 1 rest
  | _ => .unfinished

/-- The target field as an address: 0..7 one station, 15 all (R77). -/
def targetOf (t : BitVec 4) : Option (Option StationNo) :=
  if h : t.toNat < 8 then some (some ⟨t.toNat, h⟩) else if t = 15#4 then some none else none

/-- The form test of R91 (test 3): the kind, its class, the form of its target, its body length and
every coded field. A frame that passes is read as the frame it spells. -/
def frameForm (f : RawFrame) : Option Frame :=
  match bodyOf f.kind.toNat f.body, targetOf f.target with
  | some body, some target =>
    if f.cls.toNat = body.cls ∧ target.isNone = body.broadcast then
      some ⟨⟨f.sender.toNat, f.sender.isLt⟩, target, body⟩
    else none
  | _, _ => none

/-- What becomes of an arrived frame that is not the station's own transmission (R91, tests 1 to
3). -/
inductive Verdict where
  | discarded
  | foreign
  | good (frame : Frame)
  deriving DecidableEq, Repr

/-- The first three tests of R91 at a station of the given number. -/
def judgeFrame (own : StationNo) (f : RawFrame) : Verdict :=
  if computedCheck f ≠ f.check then .discarded
  else if f.sender.toNat = own.val then .foreign
  else
    match frameForm f with
    | some frame => .good frame
    | none => .discarded

/-- The row that the arrival of a good frame is (R91 tests 4 and 5, chapters 6 to 9). A frame of the
kinds with one target has one, by its form (R78). -/
def Frame.arrival (f : Frame) : Instr :=
  let aim := f.target.getD f.sender
  match f.body with
  | .heartbeat phase clock g geometry spares staging =>
    .heartbeatReceived f.sender phase clock g geometry spares staging
  | .update b v attempt wanted relay d => .updateReceived f.sender b v attempt wanted relay d
  | .ack b v outcome => .ackReceived f.sender aim b v outcome
  | .query b attempt wanted => .queryReceived f.sender b attempt wanted
  | .report b v held => .reportReceived f.sender aim b v held
  | .fetch b => .fetchReceived f.sender aim b
  | .repair b v d => .repairReceived f.sender aim b v d
  | .notHeld b => .notHeldReceived f.sender aim b
  | .digest r versions => .digestReceived f.sender aim r versions
  | .rangeDone r sent want => .rangeDoneReceived f.sender aim r sent want
  | .push b v d => .pushReceived f.sender aim b v d
  | .busy request => .busyReceived f.sender aim request
  | .notServing r => .notServingReceived f.sender aim r

/-- The row that the arrival of a frame is, its own transmission apart (R91, R92). -/
def arrivalOf (own : StationNo) (raw : RawFrame) : Instr :=
  match judgeFrame own raw with
  | .discarded => .frameDiscarded raw
  | .foreign => .addressConflict raw
  | .good frame => frame.arrival

/-- The row that ends the reception of these bits, from the start bit on (R89); none while it has
not ended. -/
def receptionOf (own : StationNo) (bits : List Bool) : Option Instr :=
  match readLine bits with
  | .frame raw => some (arrivalOf own raw)
  | .broken => some (.receptionError bits)
  | .unfinished => none

/-! ## The client's bytes and request packets -/

/-- The whole bytes of the bits sampled on SDI in one transaction, first bit first: 8 bits to a
byte, most significant first, and a byte of fewer than 8 bits is discarded (R178). -/
def wholeBytes (bits : List Bool) : List Byte :=
  (List.range (bits.length / 8)).map fun i => fieldAt bits (8 * i) 8

/-- The length of a request packet by its code (R181). -/
def requestLength (code : Byte) : Option Nat :=
  if code = 0x01#8 then some 4
  else if code = 0x02#8 then some 4
  else if code = 0x03#8 then some 132
  else if code = 0x04#8 then some 2
  else none

/-- A SUBMIT's packet is well formed: a request code of the table and all its bytes (R181). -/
def packetWellFormed : List Byte → Bool
  | [] => false
  | code :: rest =>
    match requestLength code with
    | some n => decide (n ≤ rest.length + 1)
    | none => false

/-- The tag byte of a packet, 00h if it did not arrive (R181). -/
def packetTag : List Byte → Byte
  | _ :: tag :: _ => tag
  | _ => 0x00#8

/-- The request that a SUBMIT's packet makes (R181): bytes beyond its length are ignored (R180), and
a packet that is malformed or short is a bad one. -/
def requestOf (packet : List Byte) : Instr :=
  match packet with
  | code :: tag :: rest =>
    match rest with
    | n1 :: n0 :: more =>
      if code = 0x01#8 then .submitReadLocal tag (word16 n1 n0)
      else if code = 0x02#8 then .submitReadFresh tag (word16 n1 n0)
      else if code = 0x03#8 then
        match dataOf (more.take 128) with
        | some d => .submitWrite tag (word16 n1 n0) d
        | none => .badRequest packet
      else if code = 0x04#8 then .submitAbort tag
      else .badRequest packet
    | _ => if code = 0x04#8 then .submitAbort tag else .badRequest packet
  | _ => .badRequest packet

/-- The five command codes (R180). -/
def knownCommand (code : Byte) : Bool := decide (1 ≤ code.toNat) && decide (code.toNat ≤ 5)

/-- The row that a command byte is as it is received: TAKE, EVENTS and STATUS fix there what they
return (R180, R183, R186, R188). -/
def commandAtByte (code : Byte) : Option Instr :=
  if code = 0x02#8 then some .take
  else if code = 0x03#8 then some .events
  else if code = 0x04#8 then some .status
  else none

/-- The row that the rise of CSn is, after these whole bytes from the client (R178, R180). -/
def commandAtEnd (bytes : List Byte) : Instr :=
  match bytes with
  | [] => .unknownCommand []
  | code :: operands =>
    if code = 0x01#8 then requestOf operands
    else if code = 0x02#8 then .takeEnd bytes.length
    else if code = 0x03#8 then .eventsEnd bytes.length
    else if code = 0x04#8 then .status true
    else if code = 0x05#8 then .restart
    else .unknownCommand bytes

end Sys2Proof.Machine
end

