-- ==== Sys2Proof/Machine/Flags.lean ====
section
/-! DEFINITION. The flags and bytes the client sees: ATTNn, the status byte and leading bytes, the
layouts of the records and of the status block (R179, R187, R188, R191). -/

namespace Sys2Proof.Machine

/-- Phase codes (R191). -/
def Phase.code : Phase → Byte
  | .mounting => 0#8
  | .listening => 1#8
  | .catchingUp => 2#8
  | .online => 3#8
  | .isolated => 4#8
  | .faulted => 5#8

/-- Fault reason codes (R191). -/
def FaultReason.code : FaultReason → Byte
  | .none => 0#8
  | .media => 1#8
  | .address => 2#8

/-- Outcome codes (R181). -/
def SubmitOutcome.code : SubmitOutcome → Byte
  | .none => 0x00#8
  | .accepted => 0x01#8
  | .notReady => 0x02#8
  | .noQuorum => 0x03#8
  | .tableFull => 0x04#8
  | .busy => 0x05#8
  | .badTag => 0x06#8
  | .unknownTag => 0x07#8
  | .badBlock => 0x08#8
  | .badRequest => 0x09#8
  | .clockExhausted => 0x0A#8

/-- Result codes (R182). -/
def Result.code : Result → Byte
  | .ok => 0x01#8
  | .superseded => 0x02#8
  | .noQuorum => 0x03#8
  | .aborted => 0x04#8
  | .unwritten => 0x05#8
  | .blockLost => 0x06#8

/-- Event kind codes (R184). -/
def EventKind.code : EventKind → Byte
  | .peerHeard => 0x01#8
  | .peerSilent => 0x02#8
  | .peerConflict => 0x03#8
  | .addressConflict => 0x04#8
  | .phase => 0x05#8
  | .spareLow => 0x06#8
  | .sparesExhausted => 0x07#8
  | .blockLost => 0x08#8
  | .blockRepaired => 0x09#8
  | .blockUnrecovered => 0x0A#8
  | .scrubFull => 0x0B#8
  | .repairFull => 0x0C#8

/-- The kind code of the EVENTS_DROPPED record (R184). -/
def eventsDroppedCode : Byte := 0x0D#8

/-- The completion queue holds a record (R179). -/
def ClientPort.completionPending (c : ClientPort) : Bool := !c.completions.isEmpty

/-- The event queue holds an ordinary record or the EVENTS_DROPPED record has a count (R179). -/
def ClientPort.eventPending (c : ClientPort) : Bool :=
  !c.events.isEmpty || decide (0 < c.dropped.count)

/-- ATTNn is driven low: a record waits, and the part is not held in reset (R187, R192). -/
def State.attention (s : State) : Bool :=
  s.released && (s.client.completionPending || s.client.eventPending)

/-- The status byte (R191): phase in bits 7..5, completion-pending bit 4, event-pending bit 3, fault
reason in bits 2..1. -/
def State.statusByte (s : State) : Byte :=
  (s.member.phase.code <<< 5) ||| (if s.client.completionPending then 0x10#8 else 0#8)
    ||| (if s.client.eventPending then 0x08#8 else 0#8) ||| (s.member.faultReason.code <<< 1)

/-- The three leading bytes (R179). -/
def State.leadingBytes (s : State) : List Byte :=
  [s.statusByte, s.client.outcome.code, s.client.tag]

/-- The bytes of a completion record (R191). -/
def CompletionRecord.bytes : CompletionRecord → List Byte
  | .write tag result v phase => [0x01#8, tag, result.code] ++ versionBytes v ++ [phase.code]
  | .read tag result v phase d =>
    [0x02#8, tag, result.code] ++ versionBytes v ++ [phase.code] ++ d.toList

/-- The subject form and subject of an event record (R191). -/
def Subject.bytes : Subject → List Byte
  | .none => [0x00#8, 0x00#8, 0x00#8]
  | .station n => [0x01#8, 0x00#8, byteOf n.val]
  | .block b => 0x02#8 :: bytes16 (BitVec.ofNat 16 b)

/-- The detail byte of an event record (R191). -/
def Detail.code : Detail → Byte
  | .none => 0x00#8
  | .conflict .group => 0x01#8
  | .conflict .geometry => 0x02#8
  | .phase p => p.code
  | .count n => byteOf n
  | .lost .read => 0x01#8
  | .lost .write => 0x02#8
  | .lost .mount => 0x03#8

/-- The bytes of an ordinary event record (R191). -/
def EventRecord.bytes (r : EventRecord) : List Byte :=
  r.kind.code :: (r.subject.bytes ++ [r.detail.code, byteOf r.repeats])

/-- The bytes of the EVENTS_DROPPED record: no subject, the kind code of the first event dropped as
detail (R184, R191). -/
def Dropped.bytes (d : Dropped) : List Byte :=
  [eventsDroppedCode, 0x00#8, 0x00#8, 0x00#8,
    (match d.first with | some k => k.code | none => 0x00#8), byteOf d.count]

/-- The bytes a response returns from byte 3 on; the empty marker is one byte 00h (R191). -/
def Response.bytes : Response → List Byte
  | .silent => []
  | .completion none => [0x00#8]
  | .completion (some r) => r.bytes
  | .event .marker => [0x00#8]
  | .event (.ordinary r) => r.bytes
  | .event (.dropped held _) => held.bytes
  | .statusBlock bytes => bytes

/-- Byte n of the transaction in progress on SDO (R178, R189): the leading bytes, the response, then
FFh; FFh throughout a transaction opened in the interval of a RESTART. None is high impedance: CSn
is high, the transaction was abandoned by a reset, or the part is held in reset (R178, R192). -/
def State.sdo (s : State) (n : Nat) : Option Byte :=
  match s.client.transaction with
  | .closed | .abandoned => none
  | .ignored => if s.released then some 0xFF#8 else none
  | .opened leading response =>
    if s.released then some (((leading ++ response.bytes)[n]?).getD 0xFF#8) else none

/-- Bit n of the transaction in progress on SDO: 8 to a byte, most significant first (R178). -/
def State.sdoBit (s : State) (n : Nat) : Option Bool :=
  (s.sdo (n / 8)).map fun byte => byte.getMsbD (n % 8)

/-- MCSn is low: a step of an operation is in progress at the media port (R194); it is high
otherwise, and while the part is held in reset (R192, log 37). -/
def State.mediaSelected (s : State) : Bool := s.released && s.stepInProgress

/-- The part drives MIO3..MIO0: never while it is held in reset (R192). `sends` says that the
command set of the sector memory has the part send at this moment, which is outside the spec (log
37). -/
def State.mediaDriven (s : State) (sends : Bool) : Bool := s.released && sends

/-- Peer state codes (R191). -/
def PeerState.code : PeerState → Byte
  | .unheard => 0#8
  | .present => 1#8
  | .silent => 2#8
  | .conflict => 3#8

/-- The reported clock shown for a station: the own entry shows the station's own clock from the
entry to LISTENING (R102). -/
def State.shownClock (s : State) (n : StationNo) : BitVec 32 :=
  if n = s.own ∧ (s.peer n).state = .present then s.store.clock else (s.peer n).clock

/-- The six bytes of one station in the status block (R191). -/
def State.peerBytes (s : State) (n : StationNo) : List Byte :=
  [(s.peer n).state.code,
    (match (s.peer n).reported with | some p => runPhaseCode p | none => 0#8)]
    ++ bytes32 (s.shownClock n)

/-- The 66-byte status block (R188, R191). -/
def State.statusBlock (s : State) : List Byte :=
  [s.member.phase.code, s.member.faultReason.code, byteOf s.groupSize, byteOf s.quorum,
    byteOf s.own.val]
    ++ bytes32 s.store.clock
    ++ [byteOf s.media.spares.length]
    ++ bytes16 (BitVec.ofNat 16 s.media.retired.length)
    ++ [byteOf s.store.staging.length, byteOf s.media.scrub.length, byteOf s.repair.list.length,
      byteOf s.repair.cursor.range]
    ++ bytes16 s.line.discards
    ++ (List.finRange 8).flatMap s.peerBytes

end Sys2Proof.Machine
end

