-- ==== Sys2Proof/Machine/Queue.lean ====
section
/-! DEFINITION. The out-queue, the place arbiter and withdrawal (R80 to R84), and the two ways a
table entry finishes with its frames (R125, R146). -/

namespace Sys2Proof.Machine

/-! ## Joining the queue -/

/-- The place of a frame in the order: behind every frame of its class or a lower one (R80). -/
def enqueue (q : QueuedFrame) : List QueuedFrame → List QueuedFrame
  | [] => [q]
  | r :: rest =>
    if q.frame.body.cls < r.frame.body.cls then q :: r :: rest else r :: enqueue q rest

/-- The versions of a range as an outgoing DIGEST carries them (R167). -/
def State.digestVersions (s : State) (range : Fin 64) : Vector Version 64 :=
  Vector.ofFn fun i : Fin 64 => (s.entryOf (64 * range.val + i.val)).version

/-- A DIGEST takes its versions when it joins the queue (R167); other frames join as built. -/
def State.atJoining (s : State) (f : Frame) : Frame :=
  match f.body with
  | .digest range _ => { f with body := .digest range (s.digestVersions range) }
  | _ => f

/-- The serve slot goes on when the frame it waited to place joins: to the next offset, or it is
free when that was the last frame of the answer (R162, R165). -/
def ServeJob.joined (job : ServeJob) (id : Nat) : Option ServeJob :=
  match job.stage with
  | .placing waited last =>
    if waited = id then
      if last then none else some { job with offset := job.offset + 1, stage := .ready }
    else some job
  | _ => some job

/-- The first NOT_SENT push becomes SENT at the version its PUSH carries (R170, log 14). -/
def markSent (v : Version) : List PendingPush → List PendingPush
  | [] => []
  | p :: rest =>
    if p.state = .notSent then { p with version := v, state := .sent } :: rest
    else p :: markSent v rest

/-- The cursor's PUSH becomes SENT when it joins (R170). -/
def Cursor.joined (c : Cursor) (id : Nat) (f : Frame) : Cursor :=
  if c.work = .placing id then
    match f.body with
    | .push _ v _ => { c with work := .ready, pushes := markSent v c.pushes }
    | _ => { c with work := .ready }
  else c

/-- A frame joins the out-queue and its producer continues (R81, R82). -/
def State.join (s : State) (id : Nat) (f : Frame) : State :=
  ((s.onLine fun l => { l with queue := enqueue ⟨id, s.atJoining f, .unsent⟩ l.queue }).setServe
    (s.repair.serve.bind fun job => job.joined id)).onCursor fun c => c.joined id f

/-- A producer places a frame (R81): it joins when fewer than 16 are queued; else a class 0 frame is
dropped and any other waits. -/
def State.place (s : State) (id : Nat) (f : Frame) : State :=
  if s.line.queue.length < Config.outQueueCapacity then s.join id f
  else if f.body.cls = 0 then s
  else s.onLine fun l => { l with waiting := l.waiting ++ [⟨id, f⟩] }

/-- A frame of the own station, to one station or to all. -/
def State.build (s : State) (target : Option StationNo) (body : Body) : Frame :=
  ⟨s.own, target, body⟩

/-- Place a frame no producer waits for by name: an answer of class 0, a relay, a heartbeat. -/
def State.send (s : State) (target : Option StationNo) (body : Body) : State :=
  s.bumpId.place s.line.nextId (s.build target body)

/-- One of these frames waits for a place: its producer makes no further frame of that work (R81). -/
def State.waits (s : State) (ids : List Nat) : Bool := s.line.waiting.any fun w => ids.contains w.id

/-! ## The place arbiter -/

/-- The waiting frame of lowest class, and within a class the one that has waited longest (R82). -/
def bestWaiting : List WaitingFrame → Option WaitingFrame
  | [] => none
  | w :: rest =>
    match bestWaiting rest with
    | none => some w
    | some b => if b.frame.body.cls < w.frame.body.cls then some b else some w

/-- A place has been freed: it is handed out at once, if a frame waits (R82). -/
def State.handOut (s : State) : State :=
  if s.line.queue.length < Config.outQueueCapacity then
    match bestWaiting s.line.waiting with
    | none => s
    | some w =>
      (s.onLine fun l => { l with waiting := l.waiting.filter (·.id ≠ w.id) }).join w.id w.frame
  else s

/-- A frame leaves the queue and its place is handed out (R82). -/
def State.leaveQueue (s : State) (id : Nat) : State :=
  (s.onLine fun l => { l with queue := l.queue.eraseP (·.id = id) }).handOut

/-- Record on a frame on the line that its producer withdrew it (R83). -/
def QueuedFrame.withdrawn (q : QueuedFrame) : QueuedFrame :=
  match q.state with
  | .unsent => q
  | .arbitrated _ => { q with state := .arbitrated true }
  | .transmitted _ => { q with state := .transmitted true }

/-- A producer withdraws a frame (R83, and for a waiting one R125): a waiting frame is discarded, an
unsent one leaves the queue, one on the line keeps a note of it. -/
def State.withdraw (s : State) (id : Nat) : State :=
  if s.line.waiting.any (·.id = id) then
    s.onLine fun l => { l with waiting := l.waiting.filter (·.id ≠ id) }
  else
    match s.line.queue.find? (·.id = id) with
    | none => s
    | some q =>
      if q.state = .unsent then s.leaveQueue id
      else s.onLine fun l =>
        { l with queue := l.queue.map fun q => if q.id = id then q.withdrawn else q }

/-- Withdraw several frames in one event: those that wait are discarded, then those in the queue are
withdrawn in the order given. -/
def State.withdrawAll (s : State) (ids : List Nat) : State :=
  ids.foldl State.withdraw
    (s.onLine fun l => { l with waiting := l.waiting.filter (!ids.contains ·.id) })

/-! ## Heartbeats (R84) -/

def Frame.isHeartbeat (f : Frame) : Bool :=
  match f.body with
  | .heartbeat .. => true
  | _ => false

/-- Replace the content of the first unsent heartbeat. -/
def replaceHeartbeat (f : Frame) : List QueuedFrame → List QueuedFrame
  | [] => []
  | q :: rest =>
    if q.frame.isHeartbeat ∧ q.state = .unsent then { q with frame := f } :: rest
    else q :: replaceHeartbeat f rest

/-- A frame is in the arbitration field (R86). -/
def FrameState.inArbitration : FrameState → Bool
  | .arbitrated _ => true
  | _ => false

/-- Place a new heartbeat (R84): in place of an unsent one, as a replacement for one being
arbitrated, in place of one waiting, or as a new frame. -/
def State.placeHeartbeat (s : State) (f : Frame) : State :=
  if s.line.queue.any fun q => q.frame.isHeartbeat && decide (q.state = .unsent) then
    s.onLine fun l => { l with queue := replaceHeartbeat f l.queue }
  else if s.line.queue.any fun q => q.frame.isHeartbeat && q.state.inArbitration then
    s.onLine fun l => { l with replacement := some f }
  else if s.line.waiting.any fun w => w.frame.isHeartbeat then
    s.onLine fun l =>
      { l with waiting := l.waiting.map fun w => if w.frame.isHeartbeat then ⟨w.id, f⟩ else w }
  else s.bumpId.place s.line.nextId f

/-! ## Finishing a proposal and a read -/

/-- A completion record joins the completion queue (R182). -/
def State.complete (s : State) (r : CompletionRecord) : State :=
  s.onClient fun c => { c with completions := c.completions ++ [r] }

/-- SENDING or AWAITING: the proposal is not finished (R125). -/
def Proposal.running (p : Proposal) : Bool :=
  decide (p.state = .sending) || decide (p.state = .awaiting)

/-- A proposal finishes (R125); one that is FREE or FINISHED is left alone. -/
def State.finishProposal (s : State) (i : Fin 8) (result : Result) (winning : Option Version) :
    State :=
  let p := s.proposal i
  if p.running then
    ((s.setProposal i
        { p with state := .finished, result := some result, winning := winning, window := none,
                 frames := [] }).withdrawAll p.frames).complete
      (.write p.tag result (winning.getD p.version) s.member.phase)
  else s

/-- The entry is occupied and its read is not finished. -/
def ReadEntry.running (e : ReadEntry) : Bool :=
  decide (e.state ≠ .free) && decide (e.state ≠ .finished)

/-- A client read request not yet taken leaves the arbiter (R26, R154). -/
def State.dropClientRequest (s : State) (request : Option Nat) : State :=
  s.onMedia fun m => { m with clientRequests := m.clientRequests.filter (some ·.id ≠ request) }

/-- A read finishes with the version and data of its record (R146). -/
def State.finishRead (s : State) (i : Fin 4) (result : Result) (v : Version) (d : Data) : State :=
  let e := s.readEntry i
  if e.running then
    (((s.setRead i
        { e with state := .finished, result := some result, queryWindow := none,
                 fetchWindow := none, backOff := none, frames := [],
                 request := none }).dropClientRequest e.request).withdrawAll e.frames).complete
      (.read e.tag result v s.member.phase d)
  else s

end Sys2Proof.Machine
end

