-- ==== Sys2Proof/Machine/ReadOps.lean ====
section
/-! DEFINITION. The read coordinator's operations (chapter 8): the local path, collection, the fetch
candidates, and the report of a media read. -/

namespace Sys2Proof.Machine

/-- What the media controller reports of a read request (R45, R46): it was declined at the free
port, it gave the version and data read, or it was UNREADABLE. -/
inductive MediaReport where
  | declined
  | readable (version : Version) (data : Data)
  | unreadable
  deriving DecidableEq, Repr

/-! ## Reports seen -/

/-- The stations absent from the reports seen (R147). -/
def ReadEntry.wanted (e : ReadEntry) : StationSet :=
  (List.finRange 8).foldl (fun w n => if (e.reports.get n).isNone then addStation w n else w) 0#8

/-- How many stations have reported. -/
def ReadEntry.reportCount (e : ReadEntry) : Nat :=
  (List.finRange 8).countP fun n => (e.reports.get n).isSome

/-- The version of the best report (R141). -/
def ReadEntry.bestVersion (e : ReadEntry) : Version :=
  (List.finRange 8).foldl (init := Version.nil) fun best n =>
    match e.reports.get n with
    | some r => if newer r.version best then r.version else best
    | none => best

/-- Collection is under way (R148). -/
def ReadEntry.collecting (e : ReadEntry) : Bool :=
  decide (e.state = .querySending) || decide (e.state = .queryAwaiting)

/-- A fetch target is being asked (R151, R152). -/
def ReadEntry.fetching (e : ReadEntry) : Bool :=
  decide (e.state = .fetchSending) || decide (e.state = .fetchAwaiting)

/-! ## The local path (R144, R145) -/

/-- The read finishes by the map: from staging, BLOCK_LOST or UNWRITTEN. A CLEAN block needs its
sector and finishes nothing here (log 27). -/
def State.finishFromMap (s : State) (i : Fin 4) : State :=
  let b := (s.readEntry i).block
  match (s.entryOf b).condition with
  | .staged => s.finishRead i .ok (s.entryOf b).version (s.stagedData b)
  | .lost => s.finishRead i .blockLost (s.entryOf b).version Data.zero
  | .unwritten => s.finishRead i .unwritten .nil Data.zero
  | .clean => s

/-- A client read request is placed at the arbiter and the entry becomes READING. -/
def State.requestRead (s : State) (i : Fin 4) : State :=
  let e := s.readEntry i
  let id := s.line.nextId
  (s.setRead i { e with state := .reading, request := some id }).bumpId.onMedia fun m =>
    { m with clientRequests := m.clientRequests ++ [⟨.client, id, e.block⟩] }

/-- A local read begins, or a fresh read takes the local path (R144). -/
def State.beginLocal (s : State) (i : Fin 4) : State :=
  if (s.entryOf (s.readEntry i).block).condition = .clean then s.requestRead i
  else s.finishFromMap i

/-- The report for the request of an entry in READING (R145). -/
def State.reportClientAt (s : State) (id : Nat) (report : MediaReport) (i : Fin 4) : State :=
  let e := s.readEntry i
  if e.state = .reading ∧ e.request = some id then
    match report with
    | .readable v d => s.finishRead i .ok v d
    | .declined | .unreadable => s.finishFromMap i
  else s

def State.reportClient (s : State) (id : Nat) (report : MediaReport) : State :=
  (List.finRange 4).foldl (fun s i => s.reportClientAt id report i) s

/-! ## Fetch targets (R150, R152) -/

/-- Ask the fetch target by a new FETCH; the entry's state is the caller's. -/
def State.sendReadFetch (s : State) (i : Fin 4) (target : StationNo) : State :=
  let e := s.readEntry i
  let id := s.line.nextId
  (s.setRead i { e with frames := e.frames ++ [id] }).bumpId.place id
    (s.build (some target) (.fetch (BitVec.ofNat 16 e.block)))

/-- The first candidate not tried that is PRESENT. The candidates passed over, found not PRESENT, join
the tried set, and those after the one chosen are not looked at: the model's choice (log 40). -/
def State.pickTarget (s : State) : List StationNo → StationSet → StationSet × Option StationNo
  | [], tried => (tried, none)
  | n :: rest, tried =>
    if hasStation tried n then s.pickTarget rest tried
    else if s.presentPeer n then (tried, some n)
    else s.pickTarget rest (addStation tried n)

/-- The next fetch target is asked, or with none left the read finishes NO_QUORUM (R150, R152). -/
def State.nextTarget (s : State) (i : Fin 4) : State :=
  let e := s.readEntry i
  match s.pickTarget e.candidates e.tried with
  | (tried, none) =>
    (s.setRead i { e with tried := tried }).finishRead i .noQuorum e.bestVersion Data.zero
  | (tried, some n) =>
    (s.setRead i { e with state := .fetchSending, tried := tried, target := some n }).sendReadFetch
      i n

/-- The entry gives up its fetch target (R152). -/
def State.giveUpTarget (s : State) (i : Fin 4) : State :=
  let e := s.readEntry i
  let tried := match e.target with
    | some n => addStation e.tried n
    | none => e.tried
  ((s.setRead i { e with tried := tried, fetchWindow := none, backOff := none,
                         frames := [] }).withdrawAll e.frames).nextTarget i

/-! ## Collection (R147 to R150) -/

/-- A reporting peer is a fetch candidate against the map entry (R150). -/
def isCandidate (m : MapEntry) : Option Report → Bool
  | none => false
  | some r =>
    r.held && (newer r.version m.version || (!m.held && decide (r.version = m.version)))

/-- Put a candidate before those it precedes: newest version first, and before its equals. -/
def insertCandidate (version : StationNo → Version) (n : StationNo) :
    List StationNo → List StationNo
  | [] => [n]
  | k :: rest =>
    if newer (version k) (version n) then k :: insertCandidate version n rest else n :: k :: rest

/-- The version a station has reported, nil if none. -/
def ReadEntry.reported (e : ReadEntry) (n : StationNo) : Version :=
  match e.reports.get n with
  | some r => r.version
  | none => .nil

/-- The fetch candidates, newest version first and then lowest number first (R150). -/
def State.formCandidates (s : State) (e : ReadEntry) : List StationNo :=
  let peers := (List.finRange 8).filter fun n =>
    decide (n ≠ s.own) && isCandidate (s.entryOf e.block) (e.reports.get n)
  peers.foldr (insertCandidate e.reported) []

/-- Collection ends (R149), and the read goes on by R150. -/
def State.endCollection (s : State) (i : Fin 4) : State :=
  let e := s.readEntry i
  let candidates := s.formCandidates e
  let s' := (s.setRead i { e with queryWindow := none, frames := [],
                                  candidates := candidates }).withdrawAll e.frames
  if candidates.isEmpty then s'.beginLocal i else s'.nextTarget i

/-- Build and place the attempt's QUERY (R147). -/
def State.sendQuery (s : State) (i : Fin 4) : State :=
  let e := s.readEntry i
  let id := s.line.nextId
  (s.setRead i { e with state := .querySending, frames := e.frames ++ [id] }).bumpId.place id
    (s.build none (.query (BitVec.ofNat 16 e.block) (byteOf e.attempt) e.wanted))

/-- Enter a report; collection ends when Q stations have reported (R147, R148). -/
def State.enterReport (s : State) (i : Fin 4) (n : StationNo) (r : Report) : State :=
  let e := s.readEntry i
  let e' := { e with reports := e.reports.set n (some r) }
  if s.quorum ≤ e'.reportCount then (s.setRead i e').endCollection i else s.setRead i e'

/-- A fresh read begins (R147). -/
def State.beginFresh (s : State) (i : Fin 4) : State :=
  let e := s.readEntry i
  let m := s.entryOf e.block
  let s' := (s.setRead i { e with state := .querySending }).enterReport i s.own ⟨m.version, m.held⟩
  if 1 < s.quorum then s'.sendQuery i else s'

/-- The query window of an entry in QUERY_AWAITING expires (R149). -/
def State.queryExpired (s : State) (i : Fin 4) : State :=
  let e := s.readEntry i
  if e.attempt < Config.attempts then
    (s.setRead i { e with attempt := e.attempt + 1, queryWindow := none }).sendQuery i
  else s.finishRead i .noQuorum e.bestVersion Data.zero

/-! ## Notices to the read coordinator -/

/-- An advance notice replaces the own report of a collecting entry for the block (R147). -/
def State.noteAdvanceAt (s : State) (b : Nat) (v : Version) (i : Fin 4) : State :=
  let e := s.readEntry i
  if e.collecting ∧ e.block = b then
    s.setRead i { e with reports := e.reports.set s.own (some ⟨v, true⟩) }
  else s

def State.noteAdvance (s : State) (b : Nat) (v : Version) : State :=
  (List.finRange 4).foldl (fun s i => s.noteAdvanceAt b v i) s

/-- A peer-lost notice at one entry (R152). -/
def State.readPeerLostAt (s : State) (n : StationNo) (i : Fin 4) : State :=
  let e := s.readEntry i
  if e.fetching ∧ e.target = some n then s.giveUpTarget i else s

def State.readPeerLost (s : State) (n : StationNo) : State :=
  (List.finRange 4).foldl (fun s i => s.readPeerLostAt n i) s

/-- The phase notice ISOLATED at one entry (R153). -/
def State.isolateReadAt (s : State) (i : Fin 4) : State :=
  let e := s.readEntry i
  if e.collecting then s.finishRead i .noQuorum e.bestVersion Data.zero else s

/-- The reads that collect finish, entry 0 first (R153, log 35, DESIGN CHOICE). -/
def State.isolateReads (s : State) : State :=
  (List.finRange 4).foldl State.isolateReadAt s

end Sys2Proof.Machine
end

