-- ==== Sys2Proof/Machine/RepairOps.lean ====
section
/-! DEFINITION. The repair engine's operations (chapter 9): the fetch slot, the serve queue and slot
as notices act on them, and the catch-up cursor. -/

namespace Sys2Proof.Machine

/-! ## Fetch slot (R157 to R160) -/

/-- A peer the slot may ask: PRESENT, reporting CATCHING_UP, ONLINE or ISOLATED, and not tried. -/
def State.fetchEligible (s : State) (n : StationNo) : Bool :=
  (s.peerReports n .catchingUp || s.peerReports n .online || s.peerReports n .isolated)
    && !hasStation s.repair.fetch.tried n

/-- Build and place the slot's FETCH of a block (R158); the slot's state is the caller's. -/
def State.sendSlotFetch (s : State) (target : StationNo) (b : Nat) : State :=
  let id := s.line.nextId
  (s.onFetch fun f => { f with frames := f.frames ++ [id] }).bumpId.place id
    (s.build (some target) (.fetch (BitVec.ofNat 16 b)))

/-- The block leaves the repair list. -/
def State.unlistRepair (s : State) (b : Nat) : State :=
  s.onRepair fun r => { r with list := r.list.filter (· ≠ b) }

/-- The slot chooses a target for its block (R157), or gives the block up (R159). -/
def State.chooseFetchTarget (s : State) (b : Nat) : State :=
  match (List.finRange 8).find? s.fetchEligible with
  | some n =>
    (s.onFetch fun f => { f with state := .fetchSending, target := some n }).sendSlotFetch n b
  | none =>
    if s.repair.fetch.tried = 0#8 then
      s.onFetch fun f => { f with state := .peerWait, target := none, backOff := some s.interval }
    else
      ((s.unlistRepair b).raise .blockUnrecovered (.block b)
        (.count (stationCount s.repair.fetch.tried))).onFetch fun _ => .idle

/-- The slot takes the head of the repair list (R157). -/
def State.takeRepairHead (s : State) : State :=
  match s.repair.list with
  | [] => s
  | b :: _ => (s.onFetch fun _ => { FetchSlot.idle with block := some b }).chooseFetchTarget b

/-- The target joins the tried set and a new one is chosen (R158 STALE, R159). At STALE a FETCH
still waiting or unsent is withdrawn by log 21. -/
def State.giveUpFetch (s : State) : State :=
  let f := s.repair.fetch
  match f.block, f.target with
  | some b, some n =>
    ((s.onFetch fun f => { f with tried := addStation f.tried n, window := none, backOff := none,
                                  frames := [] }).withdrawAll f.frames).chooseFetchTarget b
  | _, _ => s

/-- The slot ends work on its block, or stops on the phase notice LISTENING (R160). -/
def State.endFetch (s : State) : State :=
  (s.onFetch fun _ => .idle).withdrawAll s.repair.fetch.frames

/-- The answer BUSY to the slot's REPAIR (R158, log 21). -/
def State.fetchBusy (s : State) : State :=
  (s.onFetch fun f => { f with state := .backOff, window := none, backOff := some s.interval,
                               frames := [] }).withdrawAll s.repair.fetch.frames

/-- The slot is asking a target: FETCH_SENDING, FETCH_AWAITING or BACKOFF. -/
def FetchSlot.asking (f : FetchSlot) (n : StationNo) : Bool :=
  (decide (f.state = .fetchSending) || decide (f.state = .fetchAwaiting)
    || decide (f.state = .backOff)) && decide (f.target = some n)

/-- A peer-lost notice at the fetch slot (R159). -/
def State.fetchPeerLost (s : State) (n : StationNo) : State :=
  if s.repair.fetch.asking n then s.giveUpFetch else s

/-! ## Serve queue and serve slot (R161, R162) -/

/-- A serve or catch-up read request not yet taken is withdrawn (R26). -/
def State.dropEngineRequest (s : State) (id : Nat) : State :=
  s.onMedia fun m => { m with engineRequests := m.engineRequests.filter (·.id ≠ id) }

/-- The serve slot stops and is free (R162). -/
def State.stopServe (s : State) : State :=
  match s.repair.serve with
  | none => s
  | some job =>
    match job.stage with
    | .ready => s.setServe none
    | .reading id => (s.setServe none).dropEngineRequest id
    | .placing id _ => (s.setServe none).withdraw id

/-- A peer-lost notice at the serve queue and slot (R161, R162). -/
def State.servePeerLost (s : State) (n : StationNo) : State :=
  let s' := s.onRepair fun r => { r with serveQueue := r.serveQueue.filter (·.requester ≠ n) }
  match s.repair.serve with
  | some job => if job.request.requester = n then s'.stopServe else s'
  | none => s'

/-- The phase notice LISTENING at the serve queue and slot. -/
def State.clearServe (s : State) : State :=
  (s.onRepair fun r => { r with serveQueue := [] }).stopServe

/-- The range of a DIGEST request. -/
def ServeRequest.digestRange (r : ServeRequest) : Option (Fin 64) :=
  match r.kind with
  | .digest range _ => some range
  | .fetch _ => none

/-- NOT_SERVING for a DIGEST request (R161). -/
def State.refuseDigest (s : State) (r : ServeRequest) : State :=
  match r.digestRange with
  | some range => s.send (some r.requester) (.notServing range)
  | none => s

/-- The phase notice ISOLATED at the serve slot (R162). -/
def State.isolateServeSlot (s : State) : State :=
  match s.repair.serve with
  | some job =>
    if job.request.digestRange.isSome then s.stopServe.refuseDigest job.request else s
  | none => s

/-- The phase notice ISOLATED at the serve queue (R161). The NOT_SERVINGs are placed in the order of
the queue, the oldest first: the model's choice (log 31). -/
def State.isolateServeQueue (s : State) : State :=
  (s.repair.serveQueue.filter (·.digestRange.isSome)).foldl State.refuseDigest
    (s.onRepair fun r => { r with serveQueue := r.serveQueue.filter (·.digestRange.isNone) })

/-! ## Catch-up cursor (R166 to R174) -/

/-- What ends with an attempt (R172): its windows, every frame of the cursor that waits or is
unsent, its read. -/
def State.haltCursor (s : State) : State :=
  let c := s.repair.cursor
  let s' := (s.onCursor fun c =>
    { c with rangeWindow := none, pushDeadline := none, backOff := none, rest := none,
             work := .ready, frames := [], earlier := [] }).withdrawAll (c.earlier ++ c.frames)
  match c.work with
  | .reading id => s'.dropEngineRequest id
  | _ => s'

/-- The attempt starts: the sets are emptied and a DIGEST is made (R167). Its versions are taken as
it joins the out-queue (Queue.lean). Frames of a range just done that are still queued stay the
cursor's, to be withdrawn with it (R172, log 22). -/
def State.startDigest (s : State) : State :=
  let c := s.repair.cursor
  match c.server with
  | none => s
  | some server =>
    let id := s.line.nextId
    (s.onCursor fun c => { c with state := .digestSending, counted := 0#64, pushes := [],
                                  work := .ready, frames := [id],
                                  earlier := c.earlier ++ c.frames }).bumpId.place id
      (s.build (some server)
        (.digest (Fin.ofNat 64 c.range) (Vector.replicate 64 Version.nil)))

/-- The choice of server (R172). -/
def State.chooseServer (s : State) : State :=
  let tried := s.repair.cursor.tried
  match (List.finRange 8).find? fun n => s.peerReports n .online && !hasStation tried n with
  | some n => (s.onCursor fun c => { c with server := some n, attempt := 1 }).startDigest
  | none =>
    s.onCursor fun c =>
      { c with state := .resting, server := none, tried := 0#8, rest := some (4 * s.interval) }

/-- The server joins the tried set and another is chosen (R172 fourth failure, R173). -/
def State.dropServer (s : State) : State :=
  (s.haltCursor.onCursor fun c =>
    { c with tried := match c.server with
        | some n => addStation c.tried n
        | none => c.tried }).chooseServer

/-- An attempt fails (R172). -/
def State.failAttempt (s : State) : State :=
  if s.repair.cursor.attempt < Config.attempts then
    (s.haltCursor.onCursor fun c => { c with attempt := c.attempt + 1 }).startDigest
  else s.dropServer

/-- The cursor is stopped, if it is not IDLE (R174). A read of its own that still waits at the
arbiter is withdrawn, as by a failed attempt (log 36, DEDUCED). -/
def State.stopCursor (s : State) : State :=
  if s.repair.cursor.state = .idle then s else s.haltCursor.onCursor fun _ => .idle

/-- The cursor starts at range 0 with a server (R111, R166). -/
def State.startCursor (s : State) (server : StationNo) : State :=
  (s.onCursor fun c =>
    { Cursor.idle with server := some server, earlier := c.earlier }).startDigest

/-- A peer-lost notice at the cursor (R173). -/
def State.cursorPeerLost (s : State) (n : StationNo) : State :=
  if s.repair.cursor.state ≠ .idle ∧ s.repair.cursor.server = some n then s.dropServer else s

/-- A peer-lost notice at the read coordinator and the repair engine (R106). The spec gives their
units no order among themselves, and each may place a frame or free a place: the model takes the
read entries 0 to 3, the fetch slot, the serve queue and slot, the cursor (log 32, DESIGN CHOICE).
-/
def State.peerLost (s : State) (n : StationNo) : State :=
  (((s.readPeerLost n).fetchPeerLost n).servePeerLost n).cursorPeerLost n

end Sys2Proof.Machine
end

