-- ==== Sys2Proof/Machine/Offer.lean ====
section
/-! DEFINITION. The acceptance rule (R9 to R16): the judgment of an offer and what an acceptance
does, the advance notice included. -/

namespace Sys2Proof.Machine

/-- The four answers to an offer (R10). -/
inductive Answer where
  | accept
  | duplicate
  | stale (held : Version)
  | busy
  deriving DecidableEq, Repr

/-- The block has a WAITING staging entry. -/
def State.hasWaiting (s : State) (b : Nat) : Bool :=
  s.store.staging.any fun e => decide (e.block = b) && decide (e.state = .waiting)

/-- The room test (R11). -/
def State.roomFor (s : State) (b : Nat) (source : Source) : Bool :=
  (s.hasWaiting b || decide (s.store.staging.length < Config.stagingCapacity))
    && (decide (source ≠ .push) || decide (s.line.queue.length < Config.outQueueCapacity))

/-- The judgment of a SCRUB offer (R12). -/
def State.judgeScrub (s : State) (b : Nat) (v : Version) : Answer :=
  let m := s.entryOf b
  if m.condition = .clean ∧ m.version = v then
    if s.roomFor b .scrub then .accept else .busy
  else .stale m.version

/-- The version an offer is judged and accepted at: a received one with sequence 0 is nil (R2); a
SCRUB offer carries the entry's own version (R12). -/
def offeredVersion (v : Version) (source : Source) : Version :=
  if source = .scrub then v else received v

/-- The judgment of an offer from any other source (R10), v being nil or a written version. -/
def State.judgeOther (s : State) (b : Nat) (v : Version) (source : Source) : Answer :=
  let m := s.entryOf b
  if newer v m.version ∨ (v = m.version ∧ m.condition = .lost ∧ v ≠ .nil) then
    if s.roomFor b source then .accept else .busy
  else if v = m.version ∧ m.condition ≠ .lost then .duplicate
  else .stale m.version

/-- The judgment of an offer (R9, R10, R12). -/
def State.judge (s : State) (b : Nat) (v : Version) (source : Source) : Answer :=
  if Config.blocks ≤ b then .stale .nil
  else if source = .scrub then s.judgeScrub b v
  else s.judgeOther b (received v) source

/-- The staging queue takes a version: in place of the block's WAITING entry, or at the tail (R11,
R13). -/
def stage (b : Nat) (v : Version) (d : Data) (source : Source) :
    List StagingEntry → List StagingEntry
  | [] => [⟨b, v, d, source, .waiting⟩]
  | e :: rest =>
    if e.block = b ∧ e.state = .waiting then ⟨b, v, d, source, .waiting⟩ :: rest
    else e :: stage b v d source rest

/-- The block leaves the repair list by an acceptance, with BLOCK_REPAIRED, and the fetch slot ends
work on it (R14, R160). -/
def State.repaired (s : State) (b : Nat) : State :=
  if s.repair.list.contains b then
    let s' := (s.unlistRepair b).raise .blockRepaired (.block b) .none
    if s.repair.fetch.block = some b then s'.endFetch else s'
  else s

/-- An advance notice at one proposal (R133). -/
def State.supersedeAt (s : State) (b : Nat) (v : Version) (i : Fin 8) : State :=
  let p := s.proposal i
  if p.block = b ∧ newer v p.version then s.finishProposal i .superseded (some v) else s

/-- A NOT_SENT push of the block takes the new version (R170). -/
def PendingPush.advance (b : Nat) (v : Version) (p : PendingPush) : PendingPush :=
  if p.block = b ∧ p.state = .notSent then { p with version := v } else p

/-- The advance notice of R15. Proposals that it supersedes finish in rising order of entry (log 35,
DESIGN CHOICE). -/
def State.advance (s : State) (b : Nat) (v : Version) : State :=
  ((((List.finRange 8).foldl (fun s i => s.supersedeAt b v i) s).noteAdvance b v).onCursor
    fun c => { c with pushes := c.pushes.map (PendingPush.advance b v) })

/-- The map entry and the staging queue take an accepted version (R13). -/
def State.take (s : State) (b : Nat) (v : Version) (d : Data) (source : Source) : State :=
  (s.setEntry b { s.entryOf b with version := v, condition := .staged }).onStore fun st =>
    { st with staging := stage b v d source st.staging }

/-- The effects of an ACCEPT (R13 to R15). -/
def State.accept (s : State) (b : Nat) (v : Version) (d : Data) (source : Source) : State :=
  let s' := ((s.take b v d source).onMedia fun m =>
    { m with scrub := m.scrub.filter (· ≠ b) }).repaired b
  if newer v (s.entryOf b).version then s'.advance b v else s'

/-- An offer: the state after it, and the answer (R9, R10). -/
def State.offer (s : State) (b : Nat) (v : Version) (d : Data) (source : Source) :
    State × Answer :=
  match s.judge b v source with
  | .accept => (s.accept b (offeredVersion v source) d source, .accept)
  | answer => (s, answer)

end Sys2Proof.Machine
end

