-- ==== Sys2Proof/Machine/Phase.lean ====
section
/-! DEFINITION. The membership monitor's operations (chapter 6): phase changes and their notices,
the join test, the phase test, what a frame from a peer shows, and entering FAULTED. -/

namespace Sys2Proof.Machine

/-! ## Phase notices (R107) -/

/-- The phase notice ISOLATED at one proposal (R134). -/
def State.isolateProposalAt (s : State) (i : Fin 8) : State := s.finishProposal i .noQuorum none

/-- The phase notice ISOLATED. R107 gives the units no order, which shows in the completion queue
and in who gets a freed place of the out-queue: the model takes the proposals 0 to 7 (R134), the
reads 0 to 3 (R153), the serve slot, the serve queue (R161, R162) and the cursor (log 31 and log 35,
DESIGN CHOICE). -/
def State.noticeIsolated (s : State) : State :=
  ((((List.finRange 8).foldl State.isolateProposalAt s).isolateReads.isolateServeSlot
    ).isolateServeQueue).stopCursor

/-- The phase notice LISTENING: the fetch slot, the serve queue and slot, the cursor, in this order
(R107 gives none; log 31, DESIGN CHOICE). -/
def State.noticeListening (s : State) : State := s.endFetch.clearServe.stopCursor

/-- The phase notice of a running phase. -/
def State.notice (s : State) (p : RunPhase) : State :=
  match p with
  | .listening => s.noticeListening
  | .catchingUp => s
  | .online => s.stopCursor
  | .isolated => s.noticeIsolated

/-- A running phase as the station's phase. -/
def phaseOf : RunPhase → Phase
  | .listening => .listening
  | .catchingUp => .catchingUp
  | .online => .online
  | .isolated => .isolated

/-- The own entry shows PRESENT and the own phase (R102). -/
def State.showOwn (s : State) (p : RunPhase) : State :=
  s.setPeer s.own { s.peer s.own with state := .present, reported := some p }

/-- The phase changes to a running phase: the own entry, the PHASE event, the notice (R107). -/
def State.enterPhase (s : State) (p : RunPhase) : State :=
  (((s.onMember fun m => { m with phase := phaseOf p }).showOwn p).raise .phase .none
    (.phase (phaseOf p))).notice p

/-! ## FAULTED (R116) -/

/-- A frame on the line is cut off and shows unsent again (R85, log 15). -/
def QueuedFrame.cut (q : QueuedFrame) : QueuedFrame := { q with state := .unsent }

/-- The station enters FAULTED; a second fault changes nothing (R116). Findings and marking of a
mount under way are discarded (R73). -/
def State.enterFaulted (s : State) (reason : FaultReason) : State :=
  if s.member.phase = .faulted then s
  else
    (((s.onMember fun m =>
        { m with phase := .faulted, faultReason := reason, heartbeatTimer := none,
                 heartbeatDue := false, listenWindow := none,
                 peers := m.peers.map fun e => { e with silence := none } }).raise .phase .none
      (.phase .faulted)).onLine fun l => { l with queue := l.queue.map QueuedFrame.cut }).onMount
      fun _ => .reset

/-! ## Join test and phase test (R109 to R115) -/

/-- The result of a join test. -/
inductive JoinResult where
  | stay
  | found
  | catchUp (server : StationNo)
  deriving DecidableEq, Repr

/-- The station's number is lower than that of every PRESENT peer reporting LISTENING or ISOLATED
(R109 step 2). -/
def State.lowestWaiting (s : State) : Bool :=
  (List.finRange 8).all fun n =>
    !(s.peerReports n .listening || s.peerReports n .isolated) || decide (s.own < n)

/-- The lowest-numbered PRESENT peer reporting ONLINE. -/
def State.onlinePeer (s : State) : Option StationNo :=
  (List.finRange 8).find? fun n => s.peerReports n .online

/-- The join test (R109). -/
def State.joinTest (s : State) : JoinResult :=
  match s.onlinePeer with
  | some n => .catchUp n
  | none => if s.lowestWaiting && decide (s.quorum ≤ s.visible) then .found else .stay

/-- The result of the join test is applied (R110, R111, R115). -/
def State.applyJoin (s : State) (origin : CatchUpOrigin) : State :=
  match s.joinTest with
  | .stay => s
  | .found => s.enterPhase .online
  | .catchUp n =>
    ((s.onMember fun m => { m with origin := some origin }).startCursor n).enterPhase .catchingUp

/-- Catch-up is abandoned (R113). -/
def State.abandonCatchUp (s : State) : State :=
  let s' := s.stopCursor.onMember fun m => { m with origin := none }
  match s.member.origin with
  | some .isolated =>
    let s'' := s'.enterPhase .isolated
    if s''.quorum ≤ s''.visible then s''.applyJoin .isolated else s''
  | _ => (s'.enterPhase .listening).applyJoin .listening

/-- Catch-up has completed (R112). -/
def State.completeCatchUp (s : State) : State :=
  (s.onMember fun m => { m with origin := none }).enterPhase
    (if s.quorum ≤ s.visible then .online else .isolated)

/-- The phase test after a peer-table change (R106). -/
def State.phaseTest (s : State) : State :=
  match s.member.phase with
  | .listening => if s.member.listenWindow = none then s.applyJoin .listening else s
  | .catchingUp => if s.onlinePeer = none then s.abandonCatchUp else s
  | .online => if s.visible < s.quorum then s.enterPhase .isolated else s
  | .isolated => if s.quorum ≤ s.visible then s.applyJoin .isolated else s
  | .mounting | .faulted => s

/-! ## What a frame from a peer shows (R103 to R106) -/

/-- The silence window of a peer, started afresh (R105). -/
def State.silenceWindow (s : State) : Window := some (3 * s.interval)

/-- A frame other than a HEARTBEAT from a peer (R103). -/
def State.heard (s : State) (n : StationNo) : State :=
  let e := s.peer n
  match e.state with
  | .unheard | .silent =>
    ((s.setPeer n { e with state := .present, reported := none, reason := none,
                           silence := s.silenceWindow }).raise .peerHeard (.station n)
      .none).phaseTest
  | .present | .conflict => s.setPeer n { e with silence := s.silenceWindow }

/-- The conflict reason of a HEARTBEAT, none if it matches (R104). -/
def State.heartbeatReason (s : State) (groupSize geometry : Byte) : Option ConflictReason :=
  if geometry ≠ Config.geometry then some .geometry
  else if groupSize.toNat ≠ s.groupSize then some .group
  else none

/-- A matching HEARTBEAT (R104): the clock learns, the entry takes phase and clock. -/
def State.heartbeatMatches (s : State) (n : StationNo) (phase : RunPhase) (clock : BitVec 32) :
    State :=
  let e := s.peer n
  let s' := (s.learn clock).setPeer n ⟨.present, some phase, clock, none, s.silenceWindow⟩
  match e.state with
  | .unheard | .silent | .conflict => (s'.raise .peerHeard (.station n) .none).phaseTest
  | .present => if e.reported = some phase then s' else s'.phaseTest

/-- A HEARTBEAT that does not match (R104). -/
def State.heartbeatConflicts (s : State) (n : StationNo) (reason : ConflictReason) : State :=
  let e := s.peer n
  let s' := s.setPeer n { e with state := .conflict, reported := none, reason := some reason,
                                 silence := s.silenceWindow }
  let told := s'.raise .peerConflict (.station n) (.conflict reason)
  match e.state with
  | .unheard | .silent => told.phaseTest
  | .present => (told.peerLost n).phaseTest
  | .conflict => if e.reason = some reason then s' else told

/-- The silence window of a peer expires (R105). -/
def State.fallSilent (s : State) (n : StationNo) : State :=
  let e := s.peer n
  let told := (s.setPeer n { e with state := .silent, reported := none, reason := none,
                                    silence := none }).raise .peerSilent (.station n) .none
  if e.state = .present then (told.peerLost n).phaseTest else told.phaseTest

end Sys2Proof.Machine
end

