-- ==== Sys2Proof/Machine/Serve.lean ====
section
/-! DEFINITION. The serve slot and the catch-up cursor at work: one action at a time (R162 to R165,
R170, R171), and the reports of their media reads. -/

namespace Sys2Proof.Machine

/-- A serve or catch-up read request is placed at the arbiter, under the next identity (R26). -/
def State.requestEngine (s : State) (requester : Requester) (b : Nat) : State :=
  s.bumpId.onMedia fun m =>
    { m with engineRequests := m.engineRequests ++ [⟨requester, s.line.nextId, b⟩] }

/-! ## The serve slot (R162 to R165) -/

/-- The slot places a frame of its answer, and goes on when it joins the out-queue (R162). -/
def State.placeAnswer (s : State) (job : ServeJob) (last : Bool) (body : Body) : State :=
  ((s.setServe (some { job with stage := .placing s.line.nextId last })).bumpId).place
    s.line.nextId (s.build (some job.request.requester) body)

/-- The slot waits for a serve read of a CLEAN block. -/
def State.readForServe (s : State) (job : ServeJob) (b : Nat) : State :=
  (s.setServe (some { job with stage := .reading s.line.nextId })).requestEngine .serve b

/-- NOT_HELD, which frees the slot whether it is placed or dropped (R162, R163). -/
def State.answerNotHeld (s : State) (job : ServeJob) (block : BitVec 16) : State :=
  (s.setServe none).send (some job.request.requester) (.notHeld block)

/-- A FETCH is answered from the map entry (R163); a block of 4096 or more is never listed. -/
def State.serveFetch (s : State) (job : ServeJob) (block : BitVec 16) : State :=
  let b := block.toNat
  let m := s.entryOf b
  match m.condition with
  | .unwritten | .lost => s.answerNotHeld job block
  | .staged => s.placeAnswer job true (.repair block m.version (s.stagedData b))
  | .clean => s.readForServe job b

/-- One offset of a DIGEST is judged (R164), or with all judged the RANGE_DONE is placed (R165). -/
def State.serveDigest (s : State) (job : ServeJob) (range : Fin 64)
    (versions : Vector Version 64) : State :=
  if h : job.offset < 64 then
    let b := 64 * range.val + job.offset
    let m := s.entryOf b
    let d := received (versions.get ⟨job.offset, h⟩)
    if m.held ∧ newer m.version d then
      if m.condition = .staged then
        s.placeAnswer { job with sent := job.sent + 1 } false
          (.repair (BitVec.ofNat 16 b) m.version (s.stagedData b))
      else s.readForServe job b
    else if newer d m.version ∨ (m.condition = .lost ∧ d ≠ .nil) then
      s.setServe (some { job with offset := job.offset + 1, want := addOffset job.want job.offset })
    else s.setServe (some { job with offset := job.offset + 1 })
  else s.placeAnswer job true (.rangeDone range (byteOf job.sent) job.want)

/-- The free slot takes the head of the serve queue (R162). -/
def ServeRequest.job (r : ServeRequest) : ServeJob := ⟨r, 0, 0, 0#64, .ready⟩

/-- The serve slot's next action, none while it waits or has nothing to do. -/
def State.serveStep (s : State) : Option State :=
  match s.repair.serve with
  | none =>
    match s.repair.serveQueue with
    | [] => none
    | r :: rest => some ((s.onRepair fun e => { e with serveQueue := rest }).setServe (some r.job))
  | some job =>
    match job.stage with
    | .ready =>
      match job.request.kind with
      | .fetch block => some (s.serveFetch job block)
      | .digest range versions => some (s.serveDigest job range versions)
    | _ => none

/-- The report of a serve read (R163, R165). A readable one is sent as read; after any other the
slot consults the entry again, which is STAGED, LOST or UNWRITTEN by then. -/
def State.reportServe (s : State) (request : ReadRequest) (report : MediaReport) : State :=
  match s.repair.serve with
  | none => s
  | some job =>
    if job.stage = .reading request.id then
      match report with
      | .readable v d =>
        let body := Body.repair (BitVec.ofNat 16 request.block) v d
        match job.request.kind with
        | .fetch _ => s.placeAnswer job true body
        | .digest .. => s.placeAnswer { job with sent := job.sent + 1 } false body
      | .declined | .unreadable => s.setServe (some { job with stage := .ready })
    else s

/-! ## The catch-up cursor (R170, R171) -/

/-- The cursor places a PUSH, which becomes SENT when it joins the out-queue. -/
def State.placePush (s : State) (b : Nat) (v : Version) (d : Data) : State :=
  match s.repair.cursor.server with
  | none => s
  | some server =>
    let id := s.line.nextId
    (s.onCursor fun c => { c with work := .placing id, frames := c.frames ++ [id] }).bumpId.place id
      (s.build (some server) (.push (BitVec.ofNat 16 b) v d))

/-- The first pending push leaves the list that is NOT_SENT. -/
def dropNotSent : List PendingPush → List PendingPush
  | [] => []
  | p :: rest => if p.state = .notSent then rest else p :: dropNotSent rest

/-- The next PUSH, for a block whose pending push is the first NOT_SENT (R170). -/
def State.startPush (s : State) (b : Nat) : State :=
  let m := s.entryOf b
  match m.condition with
  | .staged => s.placePush b m.version (s.stagedData b)
  | .clean =>
    (s.onCursor fun c => { c with work := .reading s.line.nextId }).requestEngine .cursor b
  | .unwritten | .lost => s.onCursor fun c => { c with pushes := dropNotSent c.pushes }

/-- The range is done (R171). -/
def State.rangeDone (s : State) : State :=
  if s.repair.cursor.range < 63 then
    (s.onCursor fun c => { c with range := c.range + 1, attempt := 1, tried := 0#8,
                                  rangeWindow := none, pushDeadline := none }).startDigest
  else
    (s.onCursor fun c =>
      { Cursor.idle with range := 64, earlier := c.earlier ++ c.frames }).completeCatchUp

/-- The cursor's next action in PUSHING, none while it waits for ACKs, a read or a place. -/
def State.cursorStep (s : State) : Option State :=
  let c := s.repair.cursor
  if c.state = .pushing ∧ c.work = .ready then
    match c.pushes.find? (·.state = .notSent) with
    | some p => some (s.startPush p.block)
    | none =>
      if c.pushes.all (·.state = .settled) then some s.rangeDone
      else if c.pushes.all (·.state ≠ .sent) then some s.failAttempt
      else none
  else none

/-- The report of a catch-up read (R170). After one that is not readable the cursor consults the
entry again, which is STAGED, LOST or UNWRITTEN by then. -/
def State.reportCursor (s : State) (request : ReadRequest) (report : MediaReport) : State :=
  if s.repair.cursor.work = .reading request.id then
    match report with
    | .readable v d => s.placePush request.block v d
    | .declined | .unreadable => s.onCursor fun c => { c with work := .ready }
  else s

/-! ## The fetch slot and the reports -/

/-- The IDLE fetch slot takes the head of the repair list (R157). -/
def State.fetchStep (s : State) : Option State :=
  if s.repair.fetch.state = .idle ∧ s.repair.list ≠ [] then some s.takeRepairHead else none

/-- A report goes to the requester (R47). -/
def State.report (s : State) (request : ReadRequest) (report : MediaReport) : State :=
  match request.requester with
  | .client => s.reportClient request.id report
  | .serve => s.reportServe request report
  | .cursor => s.reportCursor request report

end Sys2Proof.Machine
end

