-- ==== Sys2Proof/Machine/Settle.lean ====
section
/-! DEFINITION. The media arbiter (R26 to R28), the start of a write and its relocations (R31, R33 to
R36), and `settle`: the units go on with what they can do at the end of a command (log 8). -/

namespace Sys2Proof.Machine

/-! ## A write and its relocations -/

/-- The write programs a block copy to a sector and reads it back, which is its next verify (R32,
R33). `previous` is the sector whose verify called for it. -/
def State.programCopy (s : State) (op : WriteOp) (n : Nat) (previous : Option Nat) : State :=
  s.usePort (.write { op with stage := .verifying n previous })
    [.program n (.copy op.block op.version op.data), .read n]

/-- The retire mark that a verify leaves to be programmed (R33 step 3), as the steps that do it. -/
def markSteps : Option Nat → List MediaStep
  | none => []
  | some n => [.mark n]

/-- After the mark owed for a sector, if any, the write has ended, and its completion is due. -/
def State.endWrite (s : State) (op : WriteOp) (owed : Option Nat) (written : Bool)
    (final : Option Nat) : State :=
  s.usePort (.write { op with stage := .ended written final }) (markSteps owed)

/-- A spare leaves the pool; SPARE_LOW is raised when the count falls to 8 (R36). In FAULTED and in
the interval of a RESTART the pool is left as it is (R29, R42, log 15, log 19). -/
def State.takeSpare (s : State) (n : Nat) : State :=
  if s.live then
    let s' := s.onMedia fun m => { m with spares := m.spares.filter (· ≠ n) }
    if s'.media.spares.length = Config.spareLow ∧ s.media.spares.length ≠ Config.spareLow then
      s'.raise .spareLow .none (.count Config.spareLow)
    else s'
  else s

/-- SPARES_EXHAUSTED, the first time after a reset that a relocation finds the pool empty (R35). -/
def State.noSpare (s : State) (b : Nat) : State :=
  if s.live ∧ !s.media.sparesExhausted then
    (s.onMedia fun m => { m with sparesExhausted := true }).raise .sparesExhausted (.block b) .none
  else s

/-- The lowest-numbered free spare that this write has not taken. -/
def State.nextSpare (s : State) (op : WriteOp) : Option Nat :=
  s.media.spares.find? fun n => !op.taken.contains n

/-- Steps 1 and 2 of a relocation (R33): it moves the write to a spare, or with none free the write
ends as given (R35). -/
def State.relocate (s : State) (op : WriteOp) (previous : Option Nat) (written : Bool) : State :=
  match s.nextSpare op with
  | some n => (s.takeSpare n).programCopy { op with taken := n :: op.taken } n previous
  | none => (s.noSpare op.block).endWrite op none written previous

/-- The verify of sector n calls for a relocation (R33): it begins at once, or after the mark owed,
which is step 3 of the relocation before. -/
def State.callRelocation (s : State) (op : WriteOp) (owed : Option Nat) (n : Nat) (written : Bool) :
    State :=
  match owed with
  | none => s.relocate op (some n) written
  | some k => s.usePort (.write { op with stage := .retiring n written }) [.mark k]

/-- The mark in progress is answered, and the relocation after it takes a spare. With none free the
mark is the write's last step, answered by WRITE_COMPLETION (log 20). -/
def State.afterMark (s : State) : State :=
  match s.media.port with
  | some (.write op) =>
    match op.stage with
    | .retiring n written =>
      if (s.nextSpare op).isSome then s.relocate op (some n) written else s
    | .verifying .. | .ended .. => s
  | _ => s

/-- The sector memory answers the step in progress: the operation's next step follows. The answer
of the last one is the operation's next command (log 20). -/
def State.answerStep (s : State) : State :=
  match s.media.steps with
  | _ :: step :: rest => s.onMedia fun m => m.run (step :: rest)
  | [_] => s.afterMark
  | [] => s

/-- So many steps of the operation at the port have been answered. -/
def State.answerSteps : State → Nat → State
  | s, 0 => s
  | s, k + 1 => s.answerStep.answerSteps k

/-- The operation of a write just taken from the staging head. -/
def StagingEntry.op (e : StagingEntry) : WriteOp :=
  ⟨e.block, e.version, e.data, .ended false none, []⟩

/-- The target of a write of block b (R31): the sector its entry names, or its home sector; none if
it names no sector and its home is retired. -/
def State.targetSector (s : State) (b : Nat) : Option Nat :=
  match (s.entryOf b).sector with
  | some n => some n
  | none => if s.media.retired.contains b then none else some b

/-- The head becomes WRITING, and the passed-over count 0 (R23, R28). -/
def State.startHead (s : State) (e : StagingEntry) (rest : List StagingEntry) : State :=
  (s.onStore fun st => { st with staging := { e with state := .writing } :: rest }).onMedia fun m =>
    { m with passedOver := 0 }

/-- The staging head's write is taken (R23, R28, R31). -/
def State.takeWrite (s : State) : State :=
  match s.store.staging with
  | [] => s
  | e :: rest =>
    match s.targetSector e.block with
    | some n => (s.startHead e rest).programCopy e.op n none
    | none => (s.startHead e rest).relocate e.op none false

/-! ## The arbiter -/

/-- A taken read counts one pass over the staging head, if it is WAITING (R28). -/
def State.passOver (s : State) : State :=
  if s.headWaiting then s.onMedia fun m => { m with passedOver := min 2 (m.passedOver + 1) } else s

/-- A class 1 or 2 request at the free port: taken if its block is CLEAN, else declined (R45). -/
def State.tryRead (s : State) (r : ReadRequest) : State :=
  let m := s.entryOf r.block
  if m.condition = .clean then
    s.passOver.usePort (.sectorRead r (m.sector.getD r.block) m.mediaVersion)
      [.read (m.sector.getD r.block)]
  else s.report r .declined

/-- A scrub read of the head of the scrub list, which leaves the list (R52). -/
def State.takeScrub (s : State) (b : Nat) (rest : List Nat) : State :=
  let m := s.entryOf b
  (s.onMedia fun m => { m with scrub := rest }).usePort
    (.scrubRead b (m.sector.getD b) m.version) [.read (m.sector.getD b)]

/-- The arbiter's choice below client reads (R27). -/
def State.arbiterLow (s : State) : Option State :=
  match s.media.engineRequests with
  | r :: rest => some ((s.onMedia fun m => { m with engineRequests := rest }).tryRead r)
  | [] =>
    if s.headWaiting then some s.takeWrite
    else
      match s.media.scrub with
      | b :: rest =>
        if s.store.staging.length < Config.stagingCapacity then some (s.takeScrub b rest) else none
      | [] => none

/-- The arbiter's choice at a free port (R27, R28); none if the port is busy or nothing waits. -/
def State.arbiterStep (s : State) : Option State :=
  if s.media.port.isSome then none
  else if s.media.passedOver = 2 ∧ s.headWaiting then some s.takeWrite
  else
    match s.media.clientRequests with
    | r :: rest => some ((s.onMedia fun m => { m with clientRequests := rest }).tryRead r)
    | [] => s.arbiterLow

/-! ## Settling -/

/-- The next action of a unit, in the order serve slot, cursor, fetch slot, arbiter (log 8). The
serve slot and the fetch slot act in CATCHING_UP, ONLINE and ISOLATED (R118). -/
def State.progress (s : State) : Option State :=
  let engine := if s.member.phase.serving then s.serveStep <|> s.cursorStep <|> s.fetchStep else none
  engine <|> s.arbiterStep

/-- At most n actions. -/
def State.settleFor : Nat → State → State
  | 0, s => s
  | n + 1, s =>
    match s.progress with
    | some s' => State.settleFor n s'
    | none => s

/-- The units go on until none has anything to do. One command gives them a few hundred actions at
most: 66 for each of 5 served requests, 65 for the cursor, one for each listed block and request. -/
def State.settle (s : State) : State := if s.live then State.settleFor 4096 s else s

end Sys2Proof.Machine
end

