-- ==== Sys2Proof/Machine/Timers.lean ====
section
/-! DEFINITION. The expiries: each acts only when its window is due and the units act (R99, log 1,
log 2). -/

namespace Sys2Proof.Machine

/-- An expiry: the owner acts if the window is due, and the units go on. -/
def State.expire (s : State) (due : Bool) (act : State → State) : State :=
  if s.live && due then (act s).settle else s

/-! ## Membership monitor -/

/-- The HEARTBEAT of an expiry, from the values of that moment (R101). -/
def State.heartbeat (s : State) (p : RunPhase) : Body :=
  .heartbeat p s.store.clock (byteOf s.groupSize) Config.geometry (byteOf s.media.spares.length)
    (byteOf s.store.staging.length)

/-- A HEARTBEAT is built and placed (R100, R84). -/
def State.beat (s : State) : State :=
  let s' := s.onMember fun m => { m with heartbeatDue := false }
  match s.member.phase.run with
  | some p => s'.placeHeartbeat (s.build none (s.heartbeat p))
  | none => s'

/-- HEARTBEAT_TIMER_EXPIRY (R100). -/
def execHeartbeatTimerExpiry (s : State) : Host.Outcome State Fault Refusal :=
  .next (s.expire s.member.heartbeatDue State.beat)

/-- The first join test of LISTENING (R108, R110). -/
def State.listenExpired (s : State) : State :=
  let s' := s.onMember fun m => { m with listenWindow := none }
  if s.member.phase = .listening then s'.applyJoin .listening else s'

/-- LISTEN_WINDOW_EXPIRY (R108). -/
def execListenWindowExpiry (s : State) : Host.Outcome State Fault Refusal :=
  .next (s.expire s.member.listenWindow.due State.listenExpired)

/-- SILENCE_WINDOW_EXPIRY of one peer (R105). -/
def execSilenceWindowExpiry (peer : StationNo) (s : State) : Host.Outcome State Fault Refusal :=
  .next (s.expire (s.peer peer).silence.due fun s => s.fallSilent peer)

/-! ## Write coordinator -/

/-- Build and place the attempt's UPDATE (R126): wanted is every station not in the ack set. -/
def State.sendUpdate (s : State) (i : Fin 8) : State :=
  let p := s.proposal i
  let id := s.line.nextId
  (s.setProposal i { p with state := .sending, frames := p.frames ++ [id] }).bumpId.place id
    (s.build none
      (.update (BitVec.ofNat 16 p.block) p.version (byteOf p.attempt) (~~~p.acks) false p.data))

/-- An ack window expires: the next attempt, or NO_QUORUM after the fourth (R128). -/
def State.ackExpired (i : Fin 8) (s : State) : State :=
  let p := s.proposal i
  if p.attempt < Config.attempts then
    (s.setProposal i { p with attempt := p.attempt + 1, window := none }).sendUpdate i
  else s.finishProposal i .noQuorum none

/-- ACK_WINDOW_EXPIRY of one entry (R128). -/
def execAckWindowExpiry (entry : Fin 8) (s : State) : Host.Outcome State Fault Refusal :=
  .next
    (s.expire ((s.proposal entry).window.due && decide ((s.proposal entry).state = .awaiting))
      (State.ackExpired entry))

/-! ## Read coordinator -/

/-- QUERY_WINDOW_EXPIRY of one entry (R149). -/
def execQueryWindowExpiry (entry : Fin 4) (s : State) : Host.Outcome State Fault Refusal :=
  .next
    (s.expire
      ((s.readEntry entry).queryWindow.due && decide ((s.readEntry entry).state = .queryAwaiting))
      fun s => s.queryExpired entry)

/-- FETCH_WINDOW_EXPIRY of one entry (R152). -/
def execFetchWindowExpiry (entry : Fin 4) (s : State) : Host.Outcome State Fault Refusal :=
  .next
    (s.expire
      ((s.readEntry entry).fetchWindow.due && decide ((s.readEntry entry).state = .fetchAwaiting))
      fun s => s.giveUpTarget entry)

/-- A read's back-off ends: while the fetch window runs, the FETCH is placed again (R152), unless the
one placed before still waits for a place (R81, log 41). -/
def State.readBackOffEnded (i : Fin 4) (s : State) : State :=
  let e := s.readEntry i
  let s' := s.setRead i { e with backOff := none }
  match e.fetchWindow, e.target with
  | some _, some n => if s.waits e.frames then s' else s'.sendReadFetch i n
  | _, _ => s'

/-- READ_BACK_OFF_EXPIRY of one entry (R152). -/
def execReadBackOffExpiry (entry : Fin 4) (s : State) : Host.Outcome State Fault Refusal :=
  .next (s.expire (s.readEntry entry).backOff.due (State.readBackOffEnded entry))

/-! ## Fetch slot -/

/-- FETCH_SLOT_WINDOW_EXPIRY (R159). -/
def execFetchSlotWindowExpiry (s : State) : Host.Outcome State Fault Refusal :=
  .next (s.expire s.repair.fetch.window.due State.giveUpFetch)

/-- The slot's back-off ends: it chooses again (PEER_WAIT), sends to the same target afresh
(BACKOFF), or places the FETCH again while the window runs (FETCH_AWAITING) (R157 to R159), unless
the one placed before still waits for a place (R81, log 41). -/
def State.slotBackOffEnded (s : State) : State :=
  let f := s.repair.fetch
  let s' := s.onFetch fun f => { f with backOff := none }
  match f.block, f.state, f.target with
  | some b, .peerWait, _ => s'.chooseFetchTarget b
  | some b, .backOff, some n =>
    (s'.onFetch fun f => { f with state := .fetchSending }).sendSlotFetch n b
  | some b, .fetchAwaiting, some n =>
    if f.window.isSome && !s.waits f.frames then s'.sendSlotFetch n b else s'
  | _, _, _ => s'

/-- FETCH_SLOT_BACK_OFF_EXPIRY (R158). -/
def execFetchSlotBackOffExpiry (s : State) : Host.Outcome State Fault Refusal :=
  .next (s.expire s.repair.fetch.backOff.due State.slotBackOffEnded)

/-! ## Catch-up cursor -/

/-- RANGE_WINDOW_EXPIRY (R172). -/
def execRangeWindowExpiry (s : State) : Host.Outcome State Fault Refusal :=
  .next
    (s.expire (s.repair.cursor.rangeWindow.due && decide (s.repair.cursor.state = .awaitingRange))
      State.failAttempt)

/-- The push deadline passes: the attempt fails if a push is not SETTLED (R172, log 12). -/
def State.pushDeadlinePassed (s : State) : State :=
  if s.repair.cursor.pushes.all (·.state = .settled) then
    s.onCursor fun c => { c with pushDeadline := none }
  else s.failAttempt

/-- PUSH_DEADLINE_EXPIRY (R172). -/
def execPushDeadlineExpiry (s : State) : Host.Outcome State Fault Refusal :=
  .next
    (s.expire (s.repair.cursor.pushDeadline.due && decide (s.repair.cursor.state = .pushing))
      State.pushDeadlinePassed)

/-- The digest back-off ends: a new digest with the same attempt number (R173). -/
def State.digestAgain (s : State) : State :=
  (s.onCursor fun c => { c with backOff := none }).startDigest

/-- DIGEST_BACKOFF_EXPIRY (R173). -/
def execDigestBackoffExpiry (s : State) : Host.Outcome State Fault Refusal :=
  .next
    (s.expire (s.repair.cursor.backOff.due && decide (s.repair.cursor.state = .digestBackoff))
      State.digestAgain)

/-- The rest ends: the choice of server once more, with an empty tried set (R172). -/
def State.restEnded (s : State) : State :=
  (s.onCursor fun c => { c with rest := none, tried := 0#8 }).chooseServer

/-- REST_EXPIRY (R172). -/
def execRestExpiry (s : State) : Host.Outcome State Fault Refusal :=
  .next
    (s.expire (s.repair.cursor.rest.due && decide (s.repair.cursor.state = .resting))
      State.restEnded)

end Sys2Proof.Machine
end

