-- ==== Sys2Proof/Machine/Client.lean ====
section
/-! DEFINITION. The client port (chapter 10): transactions, submissions, TAKE, EVENTS, STATUS and
RESTART. -/

namespace Sys2Proof.Machine

/-! ## Transactions (R178, R179) -/

def State.setTransaction (s : State) (t : Transaction) : State :=
  s.onClient fun c => { c with transaction := t }

/-- The held head record is short: a newer record of its kind and subject merges into it (R186). -/
def mergeHeld : List EventRecord → List EventRecord
  | [] => []
  | r :: rest =>
    match rest.find? fun x => decide (x.kind = r.kind) && decide (x.subject = r.subject) with
    | none => r :: rest
    | some x =>
      { r with detail := x.detail, repeats := min (r.repeats + x.repeats) 255 } ::
        rest.filter fun y => !(decide (y.kind = r.kind) && decide (y.subject = r.subject))

/-- The held EVENTS_DROPPED record is short: it adds the pending count (R186). -/
def Dropped.merge (held waiting : Dropped) : Dropped :=
  ⟨min (held.count + waiting.count) 255, held.first⟩

/-- An EVENTS transaction ends without the last byte of its record (R186). -/
def ClientPort.eventsShort (c : ClientPort) : ClientPort :=
  match c.transaction with
  | .opened _ (.event (.ordinary _)) => { c with events := mergeHeld c.events }
  | .opened _ (.event (.dropped held waiting)) => { c with dropped := held.merge waiting }
  | _ => c

/-- A transaction closes short of whatever it held. -/
def State.closeShort (s : State) : State := (s.onClient ClientPort.eventsShort).setTransaction .closed

/-- The part takes no bytes of this transaction: it was abandoned by a reset, or opened while the
part was held or waited for its RESTART (R178, R189). -/
def Transaction.deaf : Transaction → Bool
  | .abandoned | .ignored => true
  | .closed | .opened .. => false

/-- A command that ends a transaction. One that the part takes no bytes of is only closed (R178,
R189). One whose opening was not a command of its own is whole all the same (log 7). -/
def State.closing (s : State) (act : State → State) : State :=
  if s.client.transaction.deaf then s.setTransaction .closed
  else if s.awake then (act s.closeShort).settle
  else s

/-- A command byte that fixes what the transaction returns; with no transaction open for it, one
opens (log 7). -/
def State.commandByte (s : State) (response : State → Response) : State :=
  if s.awake && !s.client.transaction.deaf then
    match s.client.transaction with
    | .opened leading .silent => s.setTransaction (.opened leading (response s))
    | _ =>
      let s' := s.closeShort
      s'.setTransaction (.opened s'.leadingBytes (response s'))
  else s

/-- TRANSACTION_OPEN (R179): the fall of CSn. In the interval of a RESTART the transaction opened is
ignored (R189), and held in reset the bus is (R178, R192). -/
def execTransactionOpen (s : State) : Host.Outcome State Fault Refusal :=
  .next
    (if s.awake then
      let s' := s.closeShort
      s'.setTransaction (.opened s'.leadingBytes .silent)
    else s.setTransaction (if s.released then .ignored else .abandoned))

/-- UNKNOWN_COMMAND (R178): the transaction closes, and nothing else changes. -/
def execUnknownCommand (_bytes : List Byte) (s : State) : Host.Outcome State Fault Refusal :=
  .next (s.closing id)

/-! ## Submissions (R120, R181) -/

/-- The outcome and tag of a SUBMIT are recorded (R179). -/
def State.record (s : State) (tag : Byte) (outcome : SubmitOutcome) : State :=
  s.onClient fun c => { c with outcome := outcome, tag := tag }

/-- The phase outcome of a WRITE or a READ FRESH, accepted where it is taken (R120). -/
def Phase.quorumPermit : Phase → SubmitOutcome
  | .online => .accepted
  | .isolated => .noQuorum
  | .mounting | .listening | .catchingUp | .faulted => .notReady

/-- The phase outcome of a READ LOCAL (R120). -/
def Phase.localPermit : Phase → SubmitOutcome
  | .online | .isolated => .accepted
  | .mounting | .listening | .catchingUp | .faulted => .notReady

/-- An occupied proposal or read entry carries the tag (R122). -/
def State.tagInUse (s : State) (tag : Byte) : Bool :=
  ((List.finRange 8).any fun i =>
      decide ((s.proposal i).state ≠ .free) && decide ((s.proposal i).tag = tag))
    || ((List.finRange 4).any fun i =>
      decide ((s.readEntry i).state ≠ .free) && decide ((s.readEntry i).tag = tag))

/-- The FREE proposal entry that a write occupies (R121): the lowest-numbered one. The spec leaves
the choice open (log 34, DESIGN CHOICE). -/
def State.freeProposal (s : State) : Option (Fin 8) :=
  (List.finRange 8).find? fun i => (s.proposal i).state = .free

/-- The FREE read entry that a read occupies (R141): the lowest-numbered one (log 34, DESIGN
CHOICE). -/
def State.freeRead (s : State) : Option (Fin 4) :=
  (List.finRange 4).find? fun i => (s.readEntry i).state = .free

/-- BAD_REQUEST (R181): the outcome is recorded with the tag that arrived, and nothing else. -/
def execBadRequest (packet : List Byte) (s : State) : Host.Outcome State Fault Refusal :=
  .next
    (s.closing fun s =>
      if packetWellFormed packet then s else s.record (packetTag packet) .badRequest)

/-! ## SUBMIT WRITE (R123, R124) -/

/-- The checks before the offer, in their order (R123). -/
def State.checkWrite (s : State) (tag : Byte) (block : BitVec 16) : SubmitOutcome :=
  let permit := s.member.phase.quorumPermit
  if permit ≠ .accepted then permit
  else if s.freeProposal.isNone then .tableFull
  else if s.tagInUse tag then .badTag
  else if Config.blocks ≤ block.toNat then .badBlock
  else if s.store.clock = 0xFFFFFFFF#32 then .clockExhausted
  else .accepted

/-- An accepted write occupies an entry; in a group of one it finishes OK at once (R124). -/
def State.startProposal (s : State) (i : Fin 8) (tag : Byte) (b : Nat) (v : Version) (d : Data) :
    State :=
  let p : Proposal :=
    { Proposal.empty with
      state := .sending, tag := tag, block := b, version := v, data := d,
      acks := addStation 0#8 s.own }
  let s' := s.setProposal i p
  if s.quorum ≤ 1 then s'.finishProposal i .ok none else s'.sendUpdate i

/-- The LOCAL offer and what its acceptance brings (R3, R124). -/
def State.offerWrite (s : State) (i : Fin 8) (tag : Byte) (b : Nat) (d : Data) : State :=
  let v : Version := ⟨s.store.clock + 1#32, s.own⟩
  match s.offer b v d .localWrite with
  | (s', .accept) =>
    ((s'.onStore fun st => { st with clock := v.seq }).startProposal i tag b v d).record tag
      .accepted
  | _ => s.record tag .busy

/-- A SUBMIT WRITE is judged (R123). -/
def State.submitWrite (tag : Byte) (block : BitVec 16) (d : Data) (s : State) : State :=
  match s.checkWrite tag block, s.freeProposal with
  | .accepted, some i => s.offerWrite i tag block.toNat d
  | outcome, _ => s.record tag outcome

/-- SUBMIT_WRITE (R123). -/
def execSubmitWrite (tag : Byte) (block : BitVec 16) (data : Data) (s : State) :
    Host.Outcome State Fault Refusal :=
  .next (s.closing (State.submitWrite tag block data))

/-! ## SUBMIT READ (R143) -/

/-- The checks of a read, in their order (R143). -/
def State.checkRead (s : State) (permit : SubmitOutcome) (tag : Byte) (block : BitVec 16) :
    SubmitOutcome :=
  if permit ≠ .accepted then permit
  else if s.freeRead.isNone then .tableFull
  else if s.tagInUse tag then .badTag
  else if Config.blocks ≤ block.toNat then .badBlock
  else .accepted

/-- A FREE entry is occupied with the tag, block and mode. -/
def ReadEntry.start (tag : Byte) (b : Nat) (mode : ReadMode) : ReadEntry :=
  { ReadEntry.empty with state := .reading, tag := tag, block := b, mode := mode }

/-- A SUBMIT READ LOCAL is judged (R143, R144). -/
def State.submitReadLocal (tag : Byte) (block : BitVec 16) (s : State) : State :=
  match s.checkRead s.member.phase.localPermit tag block, s.freeRead with
  | .accepted, some i =>
    ((s.setRead i (.start tag block.toNat .localRead)).beginLocal i).record tag .accepted
  | outcome, _ => s.record tag outcome

/-- SUBMIT_READ_LOCAL (R143). -/
def execSubmitReadLocal (tag : Byte) (block : BitVec 16) (s : State) :
    Host.Outcome State Fault Refusal :=
  .next (s.closing (State.submitReadLocal tag block))

/-- A SUBMIT READ FRESH is judged (R143, R147). -/
def State.submitReadFresh (tag : Byte) (block : BitVec 16) (s : State) : State :=
  match s.checkRead s.member.phase.quorumPermit tag block, s.freeRead with
  | .accepted, some i =>
    ((s.setRead i (.start tag block.toNat .fresh)).beginFresh i).record tag .accepted
  | outcome, _ => s.record tag outcome

/-- SUBMIT_READ_FRESH (R147). -/
def execSubmitReadFresh (tag : Byte) (block : BitVec 16) (s : State) :
    Host.Outcome State Fault Refusal :=
  .next (s.closing (State.submitReadFresh tag block))

/-! ## SUBMIT ABORT (R135, R154) -/

def State.proposalOf (s : State) (tag : Byte) : Option (Fin 8) :=
  (List.finRange 8).find? fun i =>
    decide ((s.proposal i).state ≠ .free) && decide ((s.proposal i).tag = tag)

def State.readOf (s : State) (tag : Byte) : Option (Fin 4) :=
  (List.finRange 4).find? fun i =>
    decide ((s.readEntry i).state ≠ .free) && decide ((s.readEntry i).tag = tag)

/-- A SUBMIT ABORT is judged (R135, R154). -/
def State.submitAbort (tag : Byte) (s : State) : State :=
  if s.member.phase.running then
    match s.proposalOf tag, s.readOf tag with
    | some i, _ => (s.finishProposal i .aborted none).record tag .accepted
    | none, some i =>
      (s.finishRead i .aborted (s.entryOf (s.readEntry i).block).version Data.zero).record tag
        .accepted
    | none, none => s.record tag .unknownTag
  else s.record tag .notReady

/-- SUBMIT_ABORT (R135). -/
def execSubmitAbort (tag : Byte) (s : State) : Host.Outcome State Fault Refusal :=
  .next (s.closing (State.submitAbort tag))

/-! ## TAKE (R136, R183) -/

/-- TAKE: the command byte fixes the head completion record, or the empty marker (R183). -/
def execTake (s : State) : Host.Outcome State Fault Refusal :=
  .next (s.commandByte fun s => .completion s.client.completions.head?)

/-- The length in bytes of a completion record or of the marker (R191). -/
def Response.needed (r : Response) : Nat := 3 + r.bytes.length

/-- The proposal entry that placed a WRITE record becomes FREE (R136). -/
def State.freeProposalEntry (s : State) (tag : Byte) : State :=
  s.onWrites fun w =>
    ⟨w.proposals.map fun p => if p.state = .finished ∧ p.tag = tag then Proposal.empty else p⟩

/-- The read entry that placed a READ record becomes FREE (R146). -/
def State.freeReadEntry (s : State) (tag : Byte) : State :=
  s.onReads fun r =>
    ⟨r.entries.map fun e => if e.state = .finished ∧ e.tag = tag then ReadEntry.empty else e⟩

/-- The entry that placed the record becomes FREE, and its tag leaves use (R183). -/
def State.freeEntryOf (s : State) : CompletionRecord → State
  | .write tag .. => s.freeProposalEntry tag
  | .read tag .. => s.freeReadEntry tag

/-- The record leaves the head of the completion queue (R183). -/
def State.removeCompletion (s : State) (r : CompletionRecord) : State :=
  (s.onClient fun c => { c with completions := c.completions.drop 1 }).freeEntryOf r

/-- The rise of CSn of a TAKE that clocked so many whole bytes (R180, R183). -/
def State.endTake (s : State) (clocked : Nat) : State :=
  match s.client.transaction with
  | .opened _ (.completion (some r)) =>
    if (Response.completion (some r)).needed ≤ clocked then s.closeShort.removeCompletion r
    else s.closeShort
  | _ => s.closeShort

/-- A transaction without a command byte recorded: its rise of CSn is preceded by the byte (log 7).
-/
def State.beforeEnd (s : State) (response : State → Response) : State :=
  match s.client.transaction with
  | .opened _ .silent | .closed => s.commandByte response
  | _ => s

/-- TAKE_END (R183). -/
def execTakeEnd (clocked : Nat) (s : State) : Host.Outcome State Fault Refusal :=
  .next
    (if s.client.transaction.deaf then s.setTransaction .closed
    else
      if s.awake then
        (s.beforeEnd fun s => .completion s.client.completions.head?).endTake clocked
      else s)

/-! ## EVENTS (R186) -/

/-- The record an EVENTS returns (R186). -/
def ClientPort.nextEvent (c : ClientPort) : EventHold :=
  if 0 < c.dropped.count then .dropped c.dropped .zero
  else
    match c.events with
    | r :: _ => .ordinary r
    | [] => .marker

/-- EVENTS: the command byte fixes and holds the record (R186). -/
def execEvents (s : State) : Host.Outcome State Fault Refusal :=
  .next (s.commandByte fun s => .event s.client.nextEvent)

/-- The held record is removed (R186). -/
def ClientPort.removeHeld (c : ClientPort) : EventHold → ClientPort
  | .marker => c
  | .ordinary _ => { c with events := c.events.drop 1 }
  | .dropped _ waiting => { c with dropped := waiting }

/-- The rise of CSn of an EVENTS that clocked so many whole bytes (R180, R186). -/
def State.endEvents (s : State) (clocked : Nat) : State :=
  match s.client.transaction with
  | .opened _ (.event hold) =>
    if (Response.event hold).needed ≤ clocked then
      (s.onClient fun c => c.removeHeld hold).setTransaction .closed
    else s.closeShort
  | _ => s.closeShort

/-- EVENTS_END (R186). -/
def execEventsEnd (clocked : Nat) (s : State) : Host.Outcome State Fault Refusal :=
  .next
    (if s.client.transaction.deaf then s.setTransaction .closed
    else
      if s.awake then (s.beforeEnd fun s => .event s.client.nextEvent).endEvents clocked else s)

/-! ## STATUS (R188) and RESTART (R189) -/

/-- STATUS: a snapshot at the command byte (R188); the rise of CSn only closes the transaction
(R178, R180). -/
def execStatus (s : State) (rise : Bool := false) : Host.Outcome State Fault Refusal :=
  .next (if rise then s.closeShort else s.commandByte fun s => .statusBlock s.statusBlock)

/-- The station waits for its reset: the line is cut off and the units stop (R189). -/
def State.beginRestart (s : State) : State :=
  (s.onControl fun c => { c with restarting := true }).onLine fun l =>
    { l with queue := l.queue.map QueuedFrame.cut }

/-- RESTART (R189): in every phase, at the rise of CSn that ends its transaction. -/
def execRestart (s : State) : Host.Outcome State Fault Refusal :=
  .next (s.closing State.beginRestart)

end Sys2Proof.Machine
end

