-- ==== Sys2Proof/Machine/Damage.lean ====
section
/-! DEFINITION. Weak and lost blocks: the scrub list, the hand-off to the repair list, a block that
becomes LOST (R39, R50, R51, R55, R56). -/

namespace Sys2Proof.Machine

/-- A block is appended to the scrub list, or SCRUB_FULL is raised (R51). -/
def State.appendScrub (s : State) (b : Nat) : State :=
  if s.media.scrub.length < Config.scrubCapacity then
    s.onMedia fun m => { m with scrub := m.scrub ++ [b] }
  else s.raise .scrubFull (.block b) .none

/-- A LOST block is handed to the repair list, or REPAIR_FULL is raised (R56). -/
def State.handToRepair (s : State) (b : Nat) : State :=
  if s.repair.list.length < Config.repairCapacity then
    s.onRepair fun r => { r with list := r.list ++ [b] }
  else s.raise .repairFull (.block b) .none

/-- The map entry becomes LOST with BLOCK_LOST, and the block leaves the scrub list (R39, R55). -/
def State.loseBlock (s : State) (b : Nat) (sector : Option Nat) (how : LostBy) : State :=
  ((s.setEntry b { s.entryOf b with sector := sector, mediaVersion := .nil,
                                    condition := .lost }).raise .blockLost (.block b)
    (.lost how)).onMedia fun m => { m with scrub := m.scrub.filter (· ≠ b) }

/-- An UNREADABLE read of a CLEAN block (R55). -/
def State.lostByRead (s : State) (b : Nat) : State :=
  (s.loseBlock b (s.entryOf b).sector .read).handToRepair b

/-- A SCRUB offer of the data read; BUSY lists the block (R50, R53). -/
def State.scrubOffer (s : State) (b : Nat) (v : Version) (d : Data) : State :=
  match s.offer b v d .scrub with
  | (s', .busy) => s'.appendScrub b
  | (s', _) => s'

end Sys2Proof.Machine
end

