-- ==== Sys2Proof/Machine/Media.lean ====
section
/-! DEFINITION. The commands of the media port after mount: VERIFY, WRITE_COMPLETION,
SECTOR_READ_COMPLETION, SCRUB_READ_COMPLETION, and its faults. An operation that finishes in FAULTED
or in the interval of a RESTART frees the port and changes nothing else (R29, R42). -/

namespace Sys2Proof.Machine

/-! ## Port faults (R30) -/

/-- The operation at the port, if any, ends without an outcome and the station enters FAULTED with
reason MEDIA (R30, R73, R116); in the interval of a RESTART it only ends (R189). -/
def State.failPort (s : State) : State :=
  if s.awake then s.freePort.enterFaulted .media else s.freePort

/-- MEDIA_STEP_LIMIT_EXPIRY: a step unanswered for 8 ticks (R30). -/
def execMediaStepLimitExpiry (s : State) : Host.Outcome State Fault Refusal :=
  .next (if s.stepInProgress ∧ s.media.stepWindow.due then s.failPort else s)

/-- PORT_FAULT: the sector memory reports a port fault, whether or not a step is in progress (R30,
R116); a part held in reset does nothing (R192, log 1). -/
def execPortFault (s : State) : Host.Outcome State Fault Refusal :=
  .next (if s.released then s.failPort else s)

/-! ## Sector write with verify (R32 to R35) -/

/-- Step 3 of a relocation: the sector whose verify called for it joins the retired set (R33). -/
def State.retirePrevious (s : State) : Option Nat → State
  | none => s
  | some n => if s.live then s.retire n else s

/-- What follows a verify at sector n, with the mark owed for the sector before it (R33 to R35). -/
def State.afterVerify (s : State) (op : WriteOp) (owed : Option Nat) (n : Nat) :
    VerifyResult → State
  | .good => s.endWrite op owed true (some n)
  | .weak =>
    if op.taken.length < Config.relocationLimit then s.callRelocation op owed n true
    else s.endWrite op owed true (some n)
  | .failed =>
    if op.taken.length < Config.relocationLimit then s.callRelocation op owed n false
    else s.endWrite op owed false (some n)

/-- Every step before the last has been answered, the two that a relocation adds among them, and the
sector memory answers the last one now (log 20). -/
def State.lastStep (s : State) : State := s.answerSteps (s.media.steps.length + 2)

/-- The read-back of a sector just programmed completes (R32, R33). -/
def State.verify (s : State) (programError : Bool) (reading : Reading) : State :=
  match s.lastStep.media.port with
  | some (.write op) =>
    match op.stage with
    | .verifying n previous =>
      (s.lastStep.retirePrevious previous).afterVerify op previous n
        (verifyResult programError (readBack (s.lastStep.sectorContent n) reading))
    | .retiring .. | .ended .. => s
  | _ => s

/-- VERIFY (R32). -/
def execVerify (programError : Bool) (reading : Reading) (s : State) :
    Host.Outcome State Fault Refusal :=
  .next (s.verify programError reading)

/-! ## Write completion (R25, R38, R39) -/

/-- A write completes WRITTEN (R38). -/
def State.written (s : State) (op : WriteOp) (final : Nat) (another : Bool) : State :=
  let m := s.entryOf op.block
  s.setEntry op.block { m with
    sector := some final
    mediaVersion := op.version
    condition := if another then m.condition else .clean }

/-- A write completes FAILED (R39). -/
def State.writeFailed (s : State) (op : WriteOp) (final : Option Nat) (another : Bool)
    (source : Source) : State :=
  let m := s.entryOf op.block
  let sector := if final.isSome then final else m.sector
  if another then s.setEntry op.block { m with sector := sector, mediaVersion := .nil }
  else
    let s' := s.loseBlock op.block sector .write
    if source = .repair then s' else s'.handToRepair op.block

/-- The completion of a write is applied and the head leaves the staging queue (R25). -/
def State.applyWrite (s : State) (op : WriteOp) (written : Bool) (final : Option Nat) : State :=
  match s.store.staging with
  | [] => s
  | e :: rest =>
    let s' := s.onStore fun st => { st with staging := rest }
    let another := rest.any fun e => decide (e.block = op.block)
    match written, final with
    | true, some n => s'.written op n another
    | _, _ => s'.writeFailed op final another e.source

/-- An ended write leaves the port. -/
def State.leavePort (s : State) (op : WriteOp) (written : Bool) (final : Option Nat) : State :=
  if s.live then (s.freePort.applyWrite op written final).settle else s.freePort

/-- A write completes: one that has ended, or one whose last mark is answered with no spare for the
relocation after it (R35). -/
def State.completeWrite (s : State) : State :=
  match s.media.port with
  | some (.write op) =>
    match op.stage with
    | .ended written final => s.leavePort op written final
    | .retiring n written =>
      if (s.nextSpare op).isSome then s else (s.noSpare op.block).leavePort op written (some n)
    | .verifying .. => s
  | _ => s

/-- WRITE_COMPLETION (R38, R39). -/
def execWriteCompletion (s : State) : Host.Outcome State Fault Refusal := .next s.completeWrite

/-! ## Reads (R46 to R48, R50, R53, R55) -/

/-- The outcome of a client, serve or catch-up read is applied to a block that is CLEAN at
completion (R47, R50, R55). -/
def State.applyRead (s : State) (b : Nat) (v : Version) (outcome : ReadOutcome) : State :=
  if (s.entryOf b).condition = .clean then
    match outcome with
    | .clean _ | .corrected _ => s
    | .weak d => if s.media.scrub.contains b then s else s.scrubOffer b v d
    | .unreadable => s.lostByRead b
  else s

/-- The report of an outcome (R47). -/
def ReadOutcome.report (v : Version) (outcome : ReadOutcome) : MediaReport :=
  match outcome.data with
  | some d => .readable v d
  | none => .unreadable

/-- A client, serve or catch-up read completes. -/
def State.completeRead (s : State) (reading : Reading) : State :=
  match s.media.port with
  | some (.sectorRead request sector v) =>
    let outcome := readOutcome request.block v (readBack (s.sectorContent sector) reading)
    if s.live then
      ((s.freePort.applyRead request.block v outcome).report request (outcome.report v)).settle
    else s.freePort
  | _ => s

/-- SECTOR_READ_COMPLETION (R47). -/
def execSectorReadCompletion (reading : Reading) (s : State) : Host.Outcome State Fault Refusal :=
  .next (s.completeRead reading)

/-- The outcome of a scrub read (R53). -/
def State.applyScrub (s : State) (b : Nat) (v : Version) (outcome : ReadOutcome) : State :=
  match outcome.data with
  | some d => s.scrubOffer b v d
  | none => if (s.entryOf b).condition = .clean then s.lostByRead b else s

/-- A scrub read completes. -/
def State.completeScrub (s : State) (reading : Reading) : State :=
  match s.media.port with
  | some (.scrubRead b sector v) =>
    let outcome := readOutcome b v (readBack (s.sectorContent sector) reading)
    if s.live then (s.freePort.applyScrub b v outcome).settle else s.freePort
  | _ => s

/-- SCRUB_READ_COMPLETION (R53). -/
def execScrubReadCompletion (reading : Reading) (s : State) : Host.Outcome State Fault Refusal :=
  .next (s.completeScrub reading)

end Sys2Proof.Machine
end

