-- ==== Sys2Proof/Machine/Mount.lean ====
section
/-! DEFINITION. Mount (chapter 4): the scan, the resolution, the marking and the end of mount, with
the commands SCAN and MARKING. -/

namespace Sys2Proof.Machine

/-! ## Candidates and winners (R63, R64) -/

/-- A readable copy that names a block (R63). -/
structure Candidate where
  sector    : Nat
  version   : Version
  corrected : Nat
  deriving DecidableEq, Repr

/-- A spare sector. -/
def isSpare (n : Nat) : Bool := decide (Config.firstSpare ≤ n)

/-- Candidate a wins over b by the four tests of R64. -/
def Candidate.beats (a b : Candidate) : Bool :=
  newer a.version b.version ||
    (decide (a.version = b.version) &&
      (if isSpare a.sector && isSpare b.sector then
        decide (a.corrected < b.corrected)
          || (decide (a.corrected = b.corrected) && decide (b.sector < a.sector))
      else isSpare a.sector && !isSpare b.sector))

/-- The winner among candidates. -/
def winner : List Candidate → Option Candidate
  | [] => none
  | c :: rest =>
    match winner rest with
    | none => some c
    | some w => if w.beats c then some w else some c

/-- The readable copies among findings, numbered from a sector on, each with the block it names. -/
def copiesFrom : Nat → List Finding → List (Nat × Candidate)
  | _, [] => []
  | n, .copy b v k :: rest => (b, ⟨n, v, k⟩) :: copiesFrom (n + 1) rest
  | n, _ :: rest => copiesFrom (n + 1) rest

/-- The candidates of block b: its home sector's copy if it names b, and the spares naming b. -/
def candidatesOf (b : Nat) (home : Finding) (spares : List (Nat × Candidate)) : List Candidate :=
  let fromSpares := (spares.filter fun p => p.1 = b).map (·.2)
  match home with
  | .copy b' v k => if b' = b then ⟨b, v, k⟩ :: fromSpares else fromSpares
  | _ => fromSpares

/-! ## The resolution (R64 to R69) -/

/-- A home sector is retired, and unless it carries a mark already one is to be written (R66). -/
def State.retireHome (s : State) (b : Nat) (home : Finding) : State :=
  let s' := s.retire b
  if home = .mark then s' else s'.onMount fun t => { t with marking := t.marking ++ [b] }

/-- Block b is decided CLEAN by its winner (R64, R66, R68). -/
def State.resolveClean (s : State) (b : Nat) (home : Finding) (c : Candidate) : State :=
  let s₁ := s.setEntry b ⟨some c.sector, c.version, c.version, .clean⟩
  let s₂ := if isSpare c.sector then s₁.retireHome b home else s₁
  if 2 ≤ c.corrected then s₂.appendScrub b else s₂

/-- Block b is decided LOST, with BLOCK_LOST and the hand-off (R65, R69). -/
def State.resolveLost (s : State) (b : Nat) (sector : Option Nat) : State :=
  ((s.setEntry b ⟨sector, .nil, .nil, .lost⟩).raise .blockLost (.block b)
    (.lost .mount)).handToRepair b

/-- Block b is decided (R64, R65). -/
def State.resolveBlock (s : State) (spares : List (Nat × Candidate)) (b : Nat) (home : Finding) :
    State :=
  match winner (candidatesOf b home spares) with
  | some c => s.resolveClean b home c
  | none =>
    match home with
    | .blank => s
    | .mark => (s.retire b).resolveLost b none
    | .copy .. | .unreadable => s.resolveLost b (some b)

/-- The blocks are decided in ascending order. -/
def State.resolveBlocks (spares : List (Nat × Candidate)) :
    Nat → List Finding → State → State
  | _, [], s => s
  | b, home :: rest, s => State.resolveBlocks spares (b + 1) rest (s.resolveBlock spares b home)

/-- A spare finds its place: in use, free or retired (R66). -/
def State.placeSpare (s : State) (n : Nat) : Finding → State
  | .blank => s.onMedia fun m => { m with spares := m.spares ++ [n] }
  | .mark | .unreadable => s.retire n
  | .copy b _ _ =>
    if (s.entryOf b).sector = some n then s
    else s.onMedia fun m => { m with spares := m.spares ++ [n] }

def State.placeSpares : Nat → List Finding → State → State
  | _, [], s => s
  | n, f :: rest, s => State.placeSpares (n + 1) rest (s.placeSpare n f)

/-- The largest sequence in any copy (R67). -/
def largestSequence : List Finding → BitVec 32
  | [] => 0#32
  | .copy _ v _ :: rest =>
    if largestSequence rest < v.seq then v.seq else largestSequence rest
  | _ :: rest => largestSequence rest

/-- The resolution of the findings, sector 0 first (R64 to R69). -/
def State.resolve (s : State) (findings : List Finding) : State :=
  let homes := findings.take Config.blocks
  let spares := findings.drop Config.blocks
  ((s.resolveBlocks (copiesFrom Config.firstSpare spares) 0 homes).placeSpares Config.firstSpare
    spares).onStore fun st => { st with clock := largestSequence findings }

/-! ## Marking and the end of mount (R70, R71, R108) -/

/-- Mount ends: SPARE_LOW if called for, then LISTENING with its timer and window. A frame on the
line at this moment is ignored to its end (R72, R88). -/
def State.endMount (s : State) (lineActive : Bool) : State :=
  let s₁ := s.freePort.onMount fun _ => .reset
  let count := s₁.media.spares.length
  let s₂ := if count ≤ Config.spareLow then s₁.raise .spareLow .none (.count count) else s₁
  let s₃ := s₂.enterPhase .listening
  ((s₃.onMember fun m =>
    { m with heartbeatTimer := some s.interval, listenWindow := some (3 * s.interval) }).onLine
    fun l => { l with ignoring := lineActive }).settle

/-- The next mark of the marking list is started, or mount ends (R70). -/
def State.nextMark (s : State) (lineActive : Bool) : State :=
  match s.mount.marking with
  | [] => s.endMount lineActive
  | n :: _ => s.usePort (.retireMark n) [.mark n]

/-- The read of sector n completes: its finding is recorded, and the next read or, after sector
4223, the resolution follows (R62). -/
def State.recordFinding (s : State) (n : Nat) (f : Finding) (lineActive : Bool) : State :=
  let s' := s.onMount fun t => { t with findings := t.findings ++ [f] }
  if n + 1 < Config.sectors then s'.usePort (.scanRead (n + 1)) [.read (n + 1)]
  else (s'.resolve s'.mount.findings).nextMark lineActive

/-- SCAN (R62). In the interval of a RESTART the read's result is not used (R75). -/
def execScan (reading : Reading) (s : State) (lineActive : Bool := false) :
    Host.Outcome State Fault Refusal :=
  .next
    (match s.media.port with
    | some (.scanRead n) =>
      if s.awake then
        s.recordFinding n (findingOf (readBack (s.sectorContent n) reading)) lineActive
      else s.freePort
    | _ => s)

/-- MARKING (R70): the mark's operation completes, a program error reported on it or not. -/
def execMarking (_programError : Bool) (s : State) (lineActive : Bool := false) :
    Host.Outcome State Fault Refusal :=
  .next
    (match s.media.port with
    | some (.retireMark _) =>
      if s.awake then (s.onMount fun t => { t with marking := t.marking.drop 1 }).nextMark lineActive
      else s.freePort
    | _ => s)

end Sys2Proof.Machine
end

