-- ==== Sys2Proof/Machine/Line.lean ====
section
/-! DEFINITION. The line controller's commands of sending and of frames that are not delivered:
TRANSMISSION_START, ARBITRATION_LOST, ARBITRATION_WON, READ_BACK_MISMATCH, TRANSMISSION_COMPLETION,
RECEPTION_ERROR, FRAME_DISCARDED, ADDRESS_CONFLICT. -/

namespace Sys2Proof.Machine

/-! ## The frame on the line -/

/-- A frame is being arbitrated or transmitted (R80). -/
def FrameState.onLine : FrameState → Bool
  | .unsent => false
  | _ => true

/-- The frame that the station is sending. -/
def State.sending (s : State) : Option QueuedFrame := s.line.queue.find? (·.state.onLine)

/-- The station drives LNA and LNB, at the dominant bits of this frame (R194); none while it sends
no frame, and in MOUNTING, FAULTED, a reset or the interval of a RESTART (R72, R116, R189, R192). -/
def State.lineFrame (s : State) : Option Frame :=
  if s.live then s.sending.map (·.frame) else none

/-- Give a queued frame a new state. -/
def State.markFrame (s : State) (id : Nat) (state : FrameState) : State :=
  s.onLine fun l =>
    { l with queue := l.queue.map fun q => if q.id = id then { q with state := state } else q }

/-- Give a queued heartbeat new content. -/
def State.replaceFrame (s : State) (id : Nat) (f : Frame) : State :=
  s.onLine fun l =>
    { l with queue := l.queue.map fun q =>
        if q.id = id ∧ q.frame.isHeartbeat then { q with frame := f } else q }

/-- The head frame's attempt begins (R85). -/
def State.startAttempt (s : State) : State :=
  match s.sending, s.line.queue with
  | none, q :: _ => s.markFrame q.id (.arbitrated false)
  | _, _ => s

/-- The line has fallen quiet, or the frame under way at the entry to LISTENING has ended: the next
frame is received (R72, R88). -/
def State.endIgnored (s : State) : State := s.onLine fun l => { l with ignoring := false }

/-- TRANSMISSION_START (R85): on a quiet line a station in a running phase with a queued frame
begins an attempt, if none of its own is under way. A frame that was under way at the entry to
LISTENING is over then (R88). -/
def execTransmissionStart (s : State) : Host.Outcome State Fault Refusal :=
  .next (if s.live then s.endIgnored.startAttempt else s)

/-! ## Arbitration (R83, R84, R86) -/

/-- The heartbeat replacement is taken from the membership monitor. -/
def State.takeReplacement (s : State) : State := s.onLine fun l => { l with replacement := none }

/-- The attempt of frame q is lost: a withdrawn frame leaves, any other becomes unsent in its place,
a heartbeat with its replacement's content (R83, R84, R86). -/
def State.loseAttempt (s : State) (q : QueuedFrame) (withdrawn : Bool) : State :=
  if withdrawn then s.leaveQueue q.id
  else
    let s' := s.markFrame q.id .unsent
    match s.line.replacement with
    | some f => (s'.replaceFrame q.id f).takeReplacement
    | none => s'

/-- The attempt of frame q is won: it is transmitted to its end, and a heartbeat that waited to
replace it is placed as a separate frame (R83, R84, R86). -/
def State.winAttempt (s : State) (q : QueuedFrame) (withdrawn : Bool) : State :=
  let s' := s.markFrame q.id (.transmitted withdrawn)
  match s.line.replacement with
  | some f => s'.takeReplacement.placeHeartbeat f
  | none => s'

/-- ARBITRATION_LOST (R86). -/
def execArbitrationLost (s : State) : Host.Outcome State Fault Refusal :=
  .next
    (match s.live, s.sending with
    | true, some q =>
      match q.state with
      | .arbitrated withdrawn => (s.loseAttempt q withdrawn).settle
      | _ => s
    | _, _ => s)

/-- ARBITRATION_WON (R86). -/
def execArbitrationWon (s : State) : Host.Outcome State Fault Refusal :=
  .next
    (match s.live, s.sending with
    | true, some q =>
      match q.state with
      | .arbitrated withdrawn => (s.winAttempt q withdrawn).settle
      | _ => s
    | _, _ => s)

/-- The station is sending frame q past its arbitration field: a frame still marked arbitrated has
won first (log 24). -/
def State.pastArbitration (s : State) (q : QueuedFrame) : State :=
  match q.state with
  | .arbitrated withdrawn => s.winAttempt q withdrawn
  | _ => s

/-! ## Read-back mismatch (R87) -/

/-- The first heartbeat other than the given one that is queued unsent, or that waits (R84). -/
def State.otherHeartbeat (s : State) (id : Nat) : Option (Nat × Frame) :=
  match s.line.queue.find? fun q => q.frame.isHeartbeat && decide (q.id ≠ id) with
  | some q => some (q.id, q.frame)
  | none => (s.line.waiting.find? fun w => w.frame.isHeartbeat).map fun w => (w.id, w.frame)

/-- An unsent heartbeat takes the content of a later one, which leaves (R84, log 11). -/
def State.mergeHeartbeat (s : State) (id : Nat) : State :=
  match s.otherHeartbeat id with
  | some (other, f) => (s.replaceFrame id f).withdraw other
  | none => s

/-- Frame q stops on the line: it becomes unsent in its place; one withdrawn is not sent again and
leaves (R83, R87, log 10). -/
def State.stopFrame (s : State) (q : QueuedFrame) : State :=
  match q.state with
  | .arbitrated true | .transmitted true => s.leaveQueue q.id
  | _ =>
    let s' := s.markFrame q.id .unsent
    if q.frame.isHeartbeat then s'.mergeHeartbeat q.id else s'

/-- READ_BACK_MISMATCH (R87). -/
def execReadBackMismatch (s : State) : Host.Outcome State Fault Refusal :=
  .next
    (match s.live, s.sending with
    | true, some q => ((s.pastArbitration q).stopFrame q).settle
    | _, _ => s)

/-! ## Completion (R87, R127, R142, R158, R167, R170) -/

/-- A proposal's UPDATE completes (R127). -/
def State.completeAtProposal (s : State) (id : Nat) (i : Fin 8) : State :=
  let p := s.proposal i
  if p.state = .sending ∧ p.frames.contains id then
    s.setProposal i { p with state := .awaiting, window := some (2 * s.interval), frames := [] }
  else s

/-- A read's QUERY or FETCH completes (R142, R147, R150, R152). -/
def State.completeAtRead (s : State) (id : Nat) (i : Fin 4) : State :=
  let e := s.readEntry i
  if e.frames.contains id then
    let e' := { e with frames := e.frames.filter (· ≠ id) }
    match e.state with
    | .querySending =>
      s.setRead i { e' with state := .queryAwaiting, queryWindow := some (2 * s.interval) }
    | .fetchSending =>
      s.setRead i { e' with state := .fetchAwaiting, fetchWindow := some (2 * s.interval) }
    | _ => s.setRead i e'
  else s

/-- The fetch slot's FETCH completes (R158, R159). -/
def State.completeAtFetch (s : State) (id : Nat) : State :=
  let f := s.repair.fetch
  if f.frames.contains id then
    let f' := { f with frames := f.frames.filter (· ≠ id) }
    if f.state = .fetchSending then
      s.onFetch fun _ => { f' with state := .fetchAwaiting, window := some (2 * s.interval) }
    else s.onFetch fun _ => f'
  else s

/-- The cursor's DIGEST or PUSH completes (R167, R170). The PUSH of a range already done starts no
deadline (log 22). -/
def State.completeAtCursor (s : State) (id : Nat) : State :=
  let c := { s.repair.cursor with earlier := s.repair.cursor.earlier.filter (· ≠ id) }
  if c.frames.contains id then
    let c' := { c with frames := c.frames.filter (· ≠ id) }
    match c.state with
    | .digestSending =>
      s.onCursor fun _ =>
        { c' with state := .awaitingRange, rangeWindow := some Config.rangeWindow }
    | .pushing => s.onCursor fun _ => { c' with pushDeadline := some (2 * s.interval) }
    | _ => s.onCursor fun _ => c'
  else s.onCursor fun _ => c

/-- The completion is reported to the frame's producer, which knows the frame as its own (R87). -/
def State.completed (s : State) (id : Nat) : State :=
  let s₁ := (List.finRange 8).foldl (fun s i => s.completeAtProposal id i) s
  let s₂ := (List.finRange 4).foldl (fun s i => s.completeAtRead id i) s₁
  (s₂.completeAtFetch id).completeAtCursor id

/-- TRANSMISSION_COMPLETION (R87). -/
def execTransmissionCompletion (s : State) : Host.Outcome State Fault Refusal :=
  .next
    (match s.live, s.sending with
    | true, some q => (((s.pastArbitration q).leaveQueue q.id).completed q.id).settle
    | _, _ => s)

/-! ## Frames that are not delivered (R89, R91, R92, R95) -/

/-- A reception ends at a station that takes part in the line (R89): the frame that was under way at
the entry to LISTENING is ignored, and the next is received (R72, R88, log 38). -/
def State.reception (s : State) (act : State → State) : State :=
  if s.live then (if s.line.ignoring then s.endIgnored else act s) else s

/-- The discard count rises and stays at 65535 (R95). -/
def State.discard (s : State) : State :=
  s.onLine fun l =>
    { l with discards := if l.discards = 0xFFFF#16 then l.discards else l.discards + 1#16 }

/-- ADDRESS_CONFLICT is raised and the station enters FAULTED with reason ADDRESS (R117). -/
def State.addressConflict (s : State) : State :=
  (s.raise .addressConflict (.station s.own) .none).enterFaulted .address

/-- RECEPTION_ERROR (R89): the bits from the start bit on break off before the last check bit. -/
def execReceptionError (bits : List Bool) (s : State) : Host.Outcome State Fault Refusal :=
  .next (if readLine bits = .broken then s.reception State.discard else s)

/-- FRAME_DISCARDED (R91): an arrived frame that fails its check or its form test. -/
def execFrameDiscarded (frame : RawFrame) (s : State) : Host.Outcome State Fault Refusal :=
  .next (if judgeFrame s.own frame = .discarded then s.reception State.discard else s)

/-- ADDRESS_CONFLICT (R92): an arrived frame that passes its check and bears the own number. -/
def execAddressConflict (frame : RawFrame) (s : State) : Host.Outcome State Fault Refusal :=
  .next (if judgeFrame s.own frame = .foreign then s.reception State.addressConflict else s)

end Sys2Proof.Machine
end

