-- ==== Sys2Proof/Machine/Receive.lean ====
section
/-! DEFINITION. The thirteen kinds of received frame: the report of the sender, delivery, and what
each unit does with the frame (R89 to R94, chapters 6 to 9). -/

namespace Sys2Proof.Machine

/-! ## Reception -/

/-- A frame other than a HEARTBEAT is delivered to this station: its target is this station or all,
and its sender is not in CONFLICT (R91 test 5, R94). -/
def State.delivers (s : State) (sender : StationNo) (target : Option StationNo) : Bool :=
  (match target with
    | none => true
    | some n => decide (n = s.own)) && decide ((s.peer sender).state ≠ .conflict)

/-- A frame other than a HEARTBEAT that passes its check and form (R91 tests 2, 4 and 5): the own
number as sender is an address conflict; else the sender is heard, and the frame is delivered if it
is for this station (R93, R94, log 17, log 29). -/
def State.receive (s : State) (sender : StationNo) (target : Option StationNo)
    (deliver : State → State) : State :=
  s.reception fun s =>
    if sender = s.own then s.addressConflict
    else
      let s' := s.heard sender
      if s'.delivers sender target then (deliver s').settle else s'.settle

/-! ## HEARTBEAT (R104) -/

/-- A HEARTBEAT is judged against the own G and geometry. -/
def State.judgeHeartbeat (s : State) (sender : StationNo) (phase : RunPhase) (clock : BitVec 32)
    (groupSize geometry : Byte) : State :=
  match s.heartbeatReason groupSize geometry with
  | none => s.heartbeatMatches sender phase clock
  | some reason => s.heartbeatConflicts sender reason

/-- HEARTBEAT_RECEIVED (R104). The free spares and the staging count are kept by no receiver
(R101). -/
def execHeartbeatReceived (sender : StationNo) (phase : RunPhase) (clock : BitVec 32)
    (groupSize geometry _freeSpares _stagingCount : Byte) (s : State) :
    Host.Outcome State Fault Refusal :=
  .next
    (s.reception fun s =>
      if sender = s.own then s.addressConflict
      else (s.judgeHeartbeat sender phase clock groupSize geometry).settle)

/-! ## UPDATE (R137, R138) and PUSH (R175) -/

/-- The outcome of an ACK for an answer (R138, R175). -/
def Answer.ack : Answer → AckOutcome
  | .accept | .duplicate => .stored
  | .stale held => .stale held
  | .busy => .busy

/-- An UPDATE is offered, and its ACK is built if one is owed (R137, R138). -/
def State.deliverUpdate (block : BitVec 16) (v : Version) (wanted : StationSet) (relay : Bool)
    (d : Data) (s : State) : State :=
  match (s.learn v.seq).offer block.toNat v d (if relay then .relay else .peer) with
  | (s', answer) =>
    if !relay ∧ hasStation wanted s.own ∧ v.origin ≠ s.own then
      s'.send (some v.origin) (.ack block v answer.ack)
    else s'

/-- UPDATE_RECEIVED (R137). An attempt outside 1..4 fails the form test (R79, log 29). -/
def execUpdateReceived (sender : StationNo) (block : BitVec 16) (version : Version) (attempt : Byte)
    (wanted : StationSet) (relay : Bool) (data : Data) (s : State) :
    Host.Outcome State Fault Refusal :=
  .next
    (if attemptOk attempt ∨ sender = s.own then
      s.receive sender none (State.deliverUpdate block version wanted relay data)
    else s.reception State.discard)

/-- A PUSH is offered; on acceptance its relay is placed, and the pusher has its ACK (R175). -/
def State.deliverPush (sender : StationNo) (block : BitVec 16) (v : Version) (d : Data)
    (s : State) : State :=
  match (s.learn v.seq).offer block.toNat v d .push with
  | (s', .accept) =>
    (s'.send none (.update block v 1#8 0#8 true d)).send (some sender) (.ack block v .stored)
  | (s', answer) => s'.send (some sender) (.ack block v answer.ack)

/-- PUSH_RECEIVED (R175). -/
def execPushReceived (sender target : StationNo) (block : BitVec 16) (version : Version)
    (data : Data) (s : State) : Host.Outcome State Fault Refusal :=
  .next (s.receive sender (some target) (State.deliverPush sender block version data))

/-! ## ACK (R129 to R132, R171) -/

/-- The ack set takes a station; with Q stations the proposal finishes OK (R130). -/
def State.countAck (s : State) (i : Fin 8) (sender : StationNo) : State :=
  let p := s.proposal i
  let acks := addStation p.acks sender
  let s' := s.setProposal i { p with acks := acks }
  if s.quorum ≤ stationCount acks then s'.finishProposal i .ok none else s'

/-- An ACK at one proposal (R129 to R132). -/
def State.ackProposal (sender : StationNo) (block : BitVec 16) (v : Version) (outcome : AckOutcome)
    (s : State) (i : Fin 8) : State :=
  let p := s.proposal i
  if p.running ∧ p.block = block.toNat ∧ p.version = v then
    match outcome with
    | .stored => s.countAck i sender
    | .stale held => s.finishProposal i .superseded (some held)
    | .busy => s
  else s

/-- The state an ACK gives a SENT push (R171). -/
def AckOutcome.pushState : AckOutcome → PushState
  | .stored | .stale _ => .settled
  | .busy => .refused

/-- A SENT push of the block and version is settled or refused. -/
def PendingPush.acked (block : BitVec 16) (v : Version) (outcome : AckOutcome) (p : PendingPush) :
    PendingPush :=
  if p.state = .sent ∧ p.block = block.toNat ∧ p.version = v then
    { p with state := AckOutcome.pushState outcome }
  else p

/-- An ACK at the cursor (R171); what the push states then call for is done as the units go on. -/
def State.ackCursor (s : State) (sender : StationNo) (block : BitVec 16) (v : Version)
    (outcome : AckOutcome) : State :=
  if s.repair.cursor.server = some sender then
    s.onCursor fun c => { c with pushes := c.pushes.map (PendingPush.acked block v outcome) }
  else s

/-- The sequences an ACK carries (R4). -/
def State.learnAck (s : State) (v : Version) (outcome : AckOutcome) : State :=
  match outcome with
  | .stale held => (s.learn v.seq).learn held.seq
  | .stored | .busy => s.learn v.seq

/-- An ACK goes to the write coordinator and to the repair engine, in that order (log 33, DESIGN
CHOICE). -/
def State.deliverAck (sender : StationNo) (block : BitVec 16) (v : Version) (outcome : AckOutcome)
    (s : State) : State :=
  ((List.finRange 8).foldl (State.ackProposal sender block v outcome)
    (s.learnAck v outcome)).ackCursor sender block v outcome

/-- ACK_RECEIVED (R129). -/
def execAckReceived (sender target : StationNo) (block : BitVec 16) (version : Version)
    (outcome : AckOutcome) (s : State) : Host.Outcome State Fault Refusal :=
  .next (s.receive sender (some target) (State.deliverAck sender block version outcome))

/-! ## QUERY (R155) and REPORT (R148) -/

/-- A QUERY naming this station is answered with a REPORT from the map (R155). -/
def State.deliverQuery (sender : StationNo) (block : BitVec 16) (wanted : StationSet) (s : State) :
    State :=
  if s.member.phase.serving ∧ hasStation wanted s.own then
    let m := s.entryOf block.toNat
    s.send (some sender) (.report block m.version m.held)
  else s

/-- QUERY_RECEIVED (R155). An attempt outside 1..4 fails the form test (R79, log 29). -/
def execQueryReceived (sender : StationNo) (block : BitVec 16) (attempt : Byte)
    (wanted : StationSet) (s : State) : Host.Outcome State Fault Refusal :=
  .next
    (if attemptOk attempt ∨ sender = s.own then
      s.receive sender none (State.deliverQuery sender block wanted)
    else s.reception State.discard)

/-- A REPORT at one read entry (R148). -/
def State.reportAt (sender : StationNo) (block : BitVec 16) (r : Report) (s : State) (i : Fin 4) :
    State :=
  let e := s.readEntry i
  if e.collecting ∧ e.block = block.toNat then s.enterReport i sender r else s

/-- A REPORT is entered in every collecting read of the block, entry 0 first (log 35, DESIGN
CHOICE). -/
def State.deliverReport (sender : StationNo) (block : BitVec 16) (v : Version) (held : Bool)
    (s : State) : State :=
  (List.finRange 4).foldl (State.reportAt sender block ⟨received v, held⟩) (s.learn v.seq)

/-- REPORT_RECEIVED (R148). -/
def execReportReceived (sender target : StationNo) (block : BitVec 16) (version : Version)
    (held : Bool) (s : State) : Host.Outcome State Fault Refusal :=
  .next (s.receive sender (some target) (State.deliverReport sender block version held))

/-! ## FETCH and DIGEST (R161) -/

/-- Two requests of one requester for one block or one range. -/
def ServeRequest.same (a b : ServeRequest) : Bool :=
  decide (a.requester = b.requester) &&
    match a.kind, b.kind with
    | .fetch x, .fetch y => decide (x = y)
    | .digest x _, .digest y _ => decide (x = y)
    | _, _ => false

/-- What a BUSY frame carries for a refused request. -/
def ServeRequest.refusal (r : ServeRequest) : RefusedRequest :=
  match r.kind with
  | .fetch b => .fetch b
  | .digest range _ => .digest range

/-- Steps 2 and 3 of R161: a repeat replaces its waiting request, one being answered is not queued,
and any other joins the tail or is answered BUSY. -/
def State.queueRequest (s : State) (r : ServeRequest) : State :=
  if s.repair.serveQueue.any r.same then
    s.onRepair fun e =>
      { e with serveQueue := e.serveQueue.map fun q => if r.same q then r else q }
  else if (s.repair.serve.map fun job => r.same job.request) = some true then s
  else if s.repair.serveQueue.length < Config.serveCapacity then
    s.onRepair fun e => { e with serveQueue := e.serveQueue ++ [r] }
  else s.send (some r.requester) (.busy r.refusal)

/-- A FETCH is queued in CATCHING_UP, ONLINE and ISOLATED (R161). -/
def State.deliverFetch (sender : StationNo) (block : BitVec 16) (s : State) : State :=
  if s.member.phase.serving then s.queueRequest ⟨sender, .fetch block⟩ else s

/-- FETCH_RECEIVED (R161). -/
def execFetchReceived (sender target : StationNo) (block : BitVec 16) (s : State) :
    Host.Outcome State Fault Refusal :=
  .next (s.receive sender (some target) (State.deliverFetch sender block))

/-- A DIGEST teaches its 64 sequences, and is queued in ONLINE or answered NOT_SERVING (R161). -/
def State.deliverDigest (sender : StationNo) (range : Fin 64) (versions : Vector Version 64)
    (s : State) : State :=
  let s' := versions.toList.foldl (fun s v => s.learn v.seq) s
  if s'.member.phase = .online then s'.queueRequest ⟨sender, .digest range versions⟩
  else s'.send (some sender) (.notServing range)

/-- DIGEST_RECEIVED (R161). -/
def execDigestReceived (sender target : StationNo) (range : Fin 64) (versions : Vector Version 64)
    (s : State) : Host.Outcome State Fault Refusal :=
  .next (s.receive sender (some target) (State.deliverDigest sender range versions))

/-! ## REPAIR (R151, R158, R168) -/

/-- A read entry that a REPAIR answers (R151). -/
def ReadEntry.awaits (e : ReadEntry) (sender : StationNo) (b : Nat) : Bool :=
  e.fetching && decide (e.block = b) && decide (e.target = some sender)

/-- One matched read finishes with the REPAIR's version and data (R151). -/
def State.repairReadAt (sender : StationNo) (b : Nat) (v : Version) (d : Data) (s : State)
    (i : Fin 4) : State :=
  if (s.readEntry i).awaits sender b then s.finishRead i .ok v d else s

/-- The read coordinator: one offer for the arrival, and every matched read finishes OK with the
version that the REPAIR carried (R151), entry 0 first (log 35, DESIGN CHOICE). -/
def State.repairReads (s : State) (sender : StationNo) (b : Nat) (v : Version) (d : Data) :
    State :=
  if (List.finRange 4).any fun i => (s.readEntry i).awaits sender b then
    (List.finRange 4).foldl (State.repairReadAt sender b v d) (s.offer b v d .repair).1
  else s

/-- The fetch slot matches a REPAIR (R158). -/
def State.slotMatches (s : State) (sender : StationNo) (b : Nat) : Bool :=
  s.repair.fetch.asking sender && decide (s.repair.fetch.block = some b)

/-- The cursor matches a REPAIR (R168). -/
def State.cursorMatches (s : State) (sender : StationNo) (b : Nat) : Bool :=
  let c := s.repair.cursor
  decide (c.server = some sender) && decide (b / 64 = c.range) &&
    (decide (c.state = .digestSending) || decide (c.state = .awaitingRange)
      || decide (c.state = .pushing))

/-- What an answer does at the fetch slot (R158); an acceptance has ended the slot already. -/
def State.slotAnswer (s : State) : Answer → State
  | .stale _ => s.giveUpFetch
  | .busy => s.fetchBusy
  | .accept | .duplicate => s

/-- What an answer does at the cursor (R168). -/
def State.cursorAnswer (s : State) (b : Nat) (answer : Answer) : State :=
  let counting := s.repair.cursor.state = .digestSending ∨ s.repair.cursor.state = .awaitingRange
  match answer with
  | .accept | .duplicate =>
    if counting then s.onCursor fun c => { c with counted := addOffset c.counted (b % 64) } else s
  | .stale _ | .busy => s

/-- The repair engine: one offer for slot and cursor together (R158, R168). -/
def State.repairEngine (s : State) (sender : StationNo) (b : Nat) (v : Version) (d : Data) :
    State :=
  let slot := s.slotMatches sender b
  let cursor := s.cursorMatches sender b
  if slot || cursor then
    match s.offer b v d .repair with
    | (s₁, answer) =>
      let s₂ := if slot then s₁.slotAnswer answer else s₁
      if cursor then s₂.cursorAnswer b answer else s₂
  else s

/-- A REPAIR goes to the read coordinator and then to the repair engine (R151, log 13). -/
def State.deliverRepair (sender : StationNo) (block : BitVec 16) (v : Version) (d : Data)
    (s : State) : State :=
  ((s.learn v.seq).repairReads sender block.toNat v d).repairEngine sender block.toNat v d

/-- REPAIR_RECEIVED (R151). -/
def execRepairReceived (sender target : StationNo) (block : BitVec 16) (version : Version)
    (data : Data) (s : State) : Host.Outcome State Fault Refusal :=
  .next (s.receive sender (some target) (State.deliverRepair sender block version data))

/-! ## NOT_HELD (R152, R159) -/

/-- A NOT_HELD at one read entry (R152). -/
def State.notHeldAt (sender : StationNo) (b : Nat) (s : State) (i : Fin 4) : State :=
  if (s.readEntry i).awaits sender b then s.giveUpTarget i else s

/-- A NOT_HELD at the fetch slot (R159). -/
def State.notHeldSlot (s : State) (sender : StationNo) (b : Nat) : State :=
  if s.slotMatches sender b ∧ s.repair.fetch.state ≠ .backOff then s.giveUpFetch else s

/-- A NOT_HELD goes to the read coordinator and to the repair engine. R78 gives the two no order,
and each may place a FETCH: the model lets the read entries 0 to 3 act first, then the fetch slot
(log 33, DESIGN CHOICE). -/
def State.deliverNotHeld (sender : StationNo) (block : BitVec 16) (s : State) : State :=
  ((List.finRange 4).foldl (State.notHeldAt sender block.toNat) s).notHeldSlot sender block.toNat

/-- NOT_HELD_RECEIVED (R152). -/
def execNotHeldReceived (sender target : StationNo) (block : BitVec 16) (s : State) :
    Host.Outcome State Fault Refusal :=
  .next (s.receive sender (some target) (State.deliverNotHeld sender block))

/-! ## RANGE_DONE (R169) -/

/-- The pending pushes of a want set, in ascending block order (R169). -/
def State.formPushes (s : State) (range : Fin 64) (want : OffsetSet) : List PendingPush :=
  ((List.range 64).filter (hasOffset want)).map fun i =>
    ⟨64 * range.val + i, (s.entryOf (64 * range.val + i)).version, .notSent⟩

/-- A RANGE_DONE that the cursor takes (R169); with an empty want set the range is done as the units
go on (R171). -/
def State.takeRangeDone (s : State) (range : Fin 64) (sent : Byte) (want : OffsetSet) : State :=
  let s' := s.onCursor fun c => { c with rangeWindow := none }
  if offsetCount s.repair.cursor.counted = sent.toNat then
    s'.onCursor fun c => { c with state := .pushing, work := .ready,
                                  pushes := s.formPushes range want }
  else s'.failAttempt

def State.deliverRangeDone (sender : StationNo) (range : Fin 64) (sent : Byte) (want : OffsetSet)
    (s : State) : State :=
  let c := s.repair.cursor
  if c.state = .awaitingRange ∧ c.server = some sender ∧ c.range = range.val then
    s.takeRangeDone range sent want
  else s

/-- RANGE_DONE_RECEIVED (R169). -/
def execRangeDoneReceived (sender target : StationNo) (range : Fin 64) (sent : Byte)
    (want : OffsetSet) (s : State) : Host.Outcome State Fault Refusal :=
  .next (s.receive sender (some target) (State.deliverRangeDone sender range sent want))

/-! ## BUSY and NOT_SERVING (R152, R159, R173) -/

/-- A BUSY for a FETCH at one read entry (R152). -/
def State.busyReadAt (sender : StationNo) (b : Nat) (s : State) (i : Fin 4) : State :=
  let e := s.readEntry i
  if e.awaits sender b ∧ e.state = .fetchAwaiting ∧ e.backOff = none then
    s.setRead i { e with backOff := some s.interval }
  else s

/-- A BUSY for a FETCH at the fetch slot (R159). -/
def State.busySlot (s : State) (sender : StationNo) (b : Nat) : State :=
  let f := s.repair.fetch
  if s.slotMatches sender b ∧ f.state = .fetchAwaiting ∧ f.backOff = none then
    s.onFetch fun f => { f with backOff := some s.interval }
  else s

/-- A BUSY for a DIGEST at the cursor (R173). -/
def State.busyCursor (s : State) (sender : StationNo) (range : Fin 64) : State :=
  let c := s.repair.cursor
  if c.state = .awaitingRange ∧ c.server = some sender ∧ c.range = range.val then
    s.onCursor fun c =>
      { c with state := .digestBackoff, rangeWindow := none, backOff := some s.interval }
  else s

/-- A BUSY goes to the read coordinator, to the fetch slot and to the cursor (R152, R159, R173);
what they do does not meet. -/
def State.deliverBusy (sender : StationNo) (request : RefusedRequest) (s : State) : State :=
  match request with
  | .fetch block =>
    ((List.finRange 4).foldl (State.busyReadAt sender block.toNat) s).busySlot sender block.toNat
  | .digest range => s.busyCursor sender range

/-- BUSY_RECEIVED (R173). -/
def execBusyReceived (sender target : StationNo) (request : RefusedRequest) (s : State) :
    Host.Outcome State Fault Refusal :=
  .next (s.receive sender (some target) (State.deliverBusy sender request))

/-- A NOT_SERVING at the cursor (R173). -/
def State.deliverNotServing (sender : StationNo) (range : Fin 64) (s : State) : State :=
  let c := s.repair.cursor
  if c.server = some sender ∧ c.range = range.val ∧
      (c.state = .digestSending ∨ c.state = .awaitingRange ∨ c.state = .digestBackoff) then
    s.dropServer
  else s

/-- NOT_SERVING_RECEIVED (R173). -/
def execNotServingReceived (sender target : StationNo) (range : Fin 64) (s : State) :
    Host.Outcome State Fault Refusal :=
  .next (s.receive sender (some target) (State.deliverNotServing sender range))

end Sys2Proof.Machine
end

