-- ==== Sys2Proof/Machine/Reset.lean ====
section
/-! DEFINITION. The resets and the tick: POWER_ON, RESETN, RESET_RELEASE, RESTART_TAKES_EFFECT and
TICK. RESTART itself closes a transaction and stands in Client.lean. -/

namespace Sys2Proof.Machine

/-! ## Resets (R192, R193) -/

/-- A transaction in progress is abandoned by a reset, and SDO is released (R178, R190); one opened
in the interval of a RESTART goes on returning FFh when the RESTART takes effect (R189, log 37). -/
def Transaction.afterReset (held : Bool) : Transaction → Transaction
  | .closed => .closed
  | .ignored => if held then .abandoned else .ignored
  | .abandoned | .opened .. => .abandoned

/-- Every piece of state at its reset value under the given control; the sectors, which are
nonvolatile, keep their contents. -/
def State.toReset (s : State) (control : ResetControl) : State where
  control := control
  member := .reset
  store := .reset
  media := .reset s.media.sectors
  mount := .reset
  line := .reset
  writes := .reset
  reads := .reset
  repair := .reset
  client := .reset
    (s.client.transaction.afterReset (control.powerOnHeld || control.resetnHeld))
  pending := s.pending

/-- The part leaves reset with the straps sampled, and mount begins at sector 0 (R61, R193). -/
def State.startUp (s : State) (straps : Straps) : State :=
  (s.toReset ⟨false, false, false, straps⟩).usePort (.scanRead 0) [.read 0]

/-- POWER_ON: the power-on reset holds the part in reset (R192). -/
def execPowerOn (s : State) : Host.Outcome State Fault Refusal :=
  .next (s.toReset { s.control with powerOnHeld := true, restarting := false })

/-- RESETN: a low level of 8 REFCLK periods or longer is recognised and holds the part in reset; a
shorter one is ignored (R192). -/
def execResetn (lowPeriods : Nat) (s : State) : Host.Outcome State Fault Refusal :=
  .next
    (if 8 ≤ lowPeriods then s.toReset { s.control with resetnHeld := true, restarting := false }
    else s)

/-- One of the two held resets is released. -/
def ResetControl.release (c : ResetControl) : ResetSource → ResetControl
  | .powerOn => { c with powerOnHeld := false }
  | .resetn => { c with resetnHeld := false }

/-- RESET_RELEASE: the part leaves reset at the later of two overlapping releases, where the straps
are sampled (R192, R193, log 25). -/
def execResetRelease (source : ResetSource) (straps : Straps) (s : State) :
    Host.Outcome State Fault Refusal :=
  .next
    (if s.released then s
    else
      let c := s.control.release source
      if c.powerOnHeld || c.resetnHeld then s.onControl fun _ => c else s.startUp straps)

/-- RESTART_TAKES_EFFECT: with no media operation in progress, the reset of a RESTART takes effect
(R189). -/
def execRestartTakesEffect (straps : Straps) (s : State) : Host.Outcome State Fault Refusal :=
  .next
    (if s.released && s.control.restarting && s.media.port.isNone then s.startUp straps else s)

/-! ## The tick (R99) -/

/-- The heartbeat timer at a tick: at its H-th rise the expiry is due and the timer goes on (R100).
-/
def Membership.countTimer (m : Membership) (interval : Nat) : Membership :=
  match m.heartbeatTimer with
  | none => m
  | some n =>
    if n ≤ 1 then { m with heartbeatTimer := some interval, heartbeatDue := true }
    else { m with heartbeatTimer := some (n - 1) }

/-- Every window of the membership monitor counts one rise (R99, R105, R108). -/
def Membership.countWindows (m : Membership) (interval : Nat) : Membership :=
  let m' := m.countTimer interval
  { m' with listenWindow := m'.listenWindow.count,
            peers := m'.peers.map fun e => { e with silence := e.silence.count } }

/-- The windows of the proposal, read, fetch-slot and cursor (R99). -/
def State.countWindows (s : State) : State :=
  ((((s.onMember fun m => m.countWindows s.interval).onWrites fun w =>
    ⟨w.proposals.map fun p => { p with window := p.window.count }⟩).onReads fun r =>
      ⟨r.entries.map fun e =>
        { e with queryWindow := e.queryWindow.count, fetchWindow := e.fetchWindow.count,
                 backOff := e.backOff.count }⟩).onFetch fun f =>
          { f with window := f.window.count, backOff := f.backOff.count }).onCursor fun c =>
            { c with rangeWindow := c.rangeWindow.count, pushDeadline := c.pushDeadline.count,
                     backOff := c.backOff.count, rest := c.rest.count }

/-- The tick count and the step limit of the media port, which run in every phase (R99). -/
def State.countTick (s : State) : State :=
  (s.onMember fun m => { m with tick := m.tick + 1#32 }).onMedia fun m =>
    { m with stepWindow := m.stepWindow.count }

/-- TICK (R99): held in reset the tick count stays at 0 (R192); the other windows run while the
station's units act in a running phase (R116, R189). Steps of the operation at the media port that
the sector memory answered since the last tick have been followed by the next, each with a step
limit of its own (R30, log 20). -/
def execTick (s : State) (answered : Nat := 0) : Host.Outcome State Fault Refusal :=
  .next
    (if s.released then
      let s' := (s.answerSteps answered).countTick
      if s.live then s'.countWindows else s'
    else s)

end Sys2Proof.Machine
end

