-- ==== Sys2Proof/Machine/Dispatch.lean ====
section
/-! DEFINITION. The effect of each command on everything but the queue: one arm per command. -/

namespace Sys2Proof.Machine

def exec (i : Instr) (s : State) : Host.Outcome State Fault Refusal :=
  match i with
  | .powerOn => Sys2Proof.Machine.execPowerOn s
  | .resetn lowPeriods => Sys2Proof.Machine.execResetn lowPeriods s
  | .resetRelease source straps => Sys2Proof.Machine.execResetRelease source straps s
  | .tick answered => Sys2Proof.Machine.execTick s answered
  | .scan reading lineActive => Sys2Proof.Machine.execScan reading s lineActive
  | .marking programError lineActive => Sys2Proof.Machine.execMarking programError s lineActive
  | .mediaStepLimitExpiry => Sys2Proof.Machine.execMediaStepLimitExpiry s
  | .portFault => Sys2Proof.Machine.execPortFault s
  | .verify programError reading => Sys2Proof.Machine.execVerify programError reading s
  | .writeCompletion => Sys2Proof.Machine.execWriteCompletion s
  | .sectorReadCompletion reading => Sys2Proof.Machine.execSectorReadCompletion reading s
  | .scrubReadCompletion reading => Sys2Proof.Machine.execScrubReadCompletion reading s
  | .transmissionStart => Sys2Proof.Machine.execTransmissionStart s
  | .arbitrationLost => Sys2Proof.Machine.execArbitrationLost s
  | .readBackMismatch => Sys2Proof.Machine.execReadBackMismatch s
  | .transmissionCompletion => Sys2Proof.Machine.execTransmissionCompletion s
  | .receptionError bits => Sys2Proof.Machine.execReceptionError bits s
  | .frameDiscarded frame => Sys2Proof.Machine.execFrameDiscarded frame s
  | .addressConflict frame => Sys2Proof.Machine.execAddressConflict frame s
  | .heartbeatReceived sender phase clock groupSize geometry freeSpares stagingCount => Sys2Proof.Machine.execHeartbeatReceived sender phase clock groupSize geometry freeSpares stagingCount s
  | .updateReceived sender block version attempt wanted relay data => Sys2Proof.Machine.execUpdateReceived sender block version attempt wanted relay data s
  | .ackReceived sender target block version outcome => Sys2Proof.Machine.execAckReceived sender target block version outcome s
  | .queryReceived sender block attempt wanted => Sys2Proof.Machine.execQueryReceived sender block attempt wanted s
  | .reportReceived sender target block version held => Sys2Proof.Machine.execReportReceived sender target block version held s
  | .fetchReceived sender target block => Sys2Proof.Machine.execFetchReceived sender target block s
  | .repairReceived sender target block version data => Sys2Proof.Machine.execRepairReceived sender target block version data s
  | .notHeldReceived sender target block => Sys2Proof.Machine.execNotHeldReceived sender target block s
  | .digestReceived sender target range versions => Sys2Proof.Machine.execDigestReceived sender target range versions s
  | .rangeDoneReceived sender target range sent want => Sys2Proof.Machine.execRangeDoneReceived sender target range sent want s
  | .pushReceived sender target block version data => Sys2Proof.Machine.execPushReceived sender target block version data s
  | .busyReceived sender target request => Sys2Proof.Machine.execBusyReceived sender target request s
  | .notServingReceived sender target range => Sys2Proof.Machine.execNotServingReceived sender target range s
  | .heartbeatTimerExpiry => Sys2Proof.Machine.execHeartbeatTimerExpiry s
  | .listenWindowExpiry => Sys2Proof.Machine.execListenWindowExpiry s
  | .silenceWindowExpiry peer => Sys2Proof.Machine.execSilenceWindowExpiry peer s
  | .submitWrite tag block data => Sys2Proof.Machine.execSubmitWrite tag block data s
  | .ackWindowExpiry entry => Sys2Proof.Machine.execAckWindowExpiry entry s
  | .submitAbort tag => Sys2Proof.Machine.execSubmitAbort tag s
  | .submitReadLocal tag block => Sys2Proof.Machine.execSubmitReadLocal tag block s
  | .submitReadFresh tag block => Sys2Proof.Machine.execSubmitReadFresh tag block s
  | .queryWindowExpiry entry => Sys2Proof.Machine.execQueryWindowExpiry entry s
  | .fetchWindowExpiry entry => Sys2Proof.Machine.execFetchWindowExpiry entry s
  | .readBackOffExpiry entry => Sys2Proof.Machine.execReadBackOffExpiry entry s
  | .fetchSlotWindowExpiry => Sys2Proof.Machine.execFetchSlotWindowExpiry s
  | .fetchSlotBackOffExpiry => Sys2Proof.Machine.execFetchSlotBackOffExpiry s
  | .rangeWindowExpiry => Sys2Proof.Machine.execRangeWindowExpiry s
  | .pushDeadlineExpiry => Sys2Proof.Machine.execPushDeadlineExpiry s
  | .digestBackoffExpiry => Sys2Proof.Machine.execDigestBackoffExpiry s
  | .restExpiry => Sys2Proof.Machine.execRestExpiry s
  | .transactionOpen => Sys2Proof.Machine.execTransactionOpen s
  | .badRequest packet => Sys2Proof.Machine.execBadRequest packet s
  | .take => Sys2Proof.Machine.execTake s
  | .takeEnd clocked => Sys2Proof.Machine.execTakeEnd clocked s
  | .events => Sys2Proof.Machine.execEvents s
  | .eventsEnd clocked => Sys2Proof.Machine.execEventsEnd clocked s
  | .status rise => Sys2Proof.Machine.execStatus s rise
  | .unknownCommand bytes => Sys2Proof.Machine.execUnknownCommand bytes s
  | .restart => Sys2Proof.Machine.execRestart s
  | .restartTakesEffect straps => Sys2Proof.Machine.execRestartTakesEffect straps s
  | .arbitrationWon => Sys2Proof.Machine.execArbitrationWon s

end Sys2Proof.Machine
end

