-- ==== Sys2Proof/Safety.lean ====
section
/-! DEFINITION. What every step keeps: the capacities and orders the spec gives the queues and lists,
the canonical form of the block map and of the sector contents, and the soundness of the block
map. -/

namespace Sys2Proof.Machine

/-- A table lists its keys in strictly rising order. -/
def risingKeys {α : Type} : List (Nat × α) → Bool
  | [] => true
  | [_] => true
  | (k, _) :: (n, w) :: rest => decide (k < n) && risingKeys ((n, w) :: rest)

/-- The block map's canonical form: blocks strictly rising, no entry equal to what an unlisted block
reads as. -/
def mapWf (map : List (Nat × MapEntry)) : Bool :=
  risingKeys map && map.all fun p => decide (p.2 ≠ .unwritten)

/-- The sector contents' canonical form: sectors strictly rising; an erased sector is unlisted. -/
def sectorsWf (sectors : List (Nat × SectorContent)) : Bool := risingKeys sectors

/-- The out-queue's order: by class, lowest first (R80). -/
def classOrdered : List QueuedFrame → Bool
  | [] => true
  | q :: rest => (rest.all fun r => decide (q.frame.body.cls ≤ r.frame.body.cls)) && classOrdered rest

/-- The table of a record's entry, true for the read table, and its tag (R182, R183). -/
def CompletionRecord.key : CompletionRecord → Bool × Byte
  | .write tag .. => (false, tag)
  | .read tag .. => (true, tag)

/-- The table and tag of every FINISHED entry. -/
def State.finishedKeys (s : State) : List (Bool × Byte) :=
  (((List.finRange 8).filter fun i => decide ((s.proposal i).state = .finished)).map fun i =>
      (false, (s.proposal i).tag)) ++
    ((List.finRange 4).filter fun i => decide ((s.readEntry i).state = .finished)).map fun i =>
      (true, (s.readEntry i).tag)

/-- The tags of the occupied entries of both tables. -/
def State.occupiedTags (s : State) : List Byte :=
  (((List.finRange 8).filter fun i => decide ((s.proposal i).state ≠ .free)).map fun i =>
      (s.proposal i).tag) ++
    ((List.finRange 4).filter fun i => decide ((s.readEntry i).state ≠ .free)).map fun i =>
      (s.readEntry i).tag

/-- Every queue and list is within its capacity (00_scope.md, FIXED QUANTITIES; R21, R28, R49, R56,
R80, R161, R182, R184), a frame waits for a place only at a full out-queue (R82), the out-queue is
in class order (R80), a heartbeat replacement is a heartbeat (R84), the tables are canonical, the
spare pool is ascending, and empty until the scan has ended (R36, R61), and a free port has no step
(R26). The capacity of the completion queue rests on its records being those of the FINISHED
entries, on the tags in use being distinct (R122), and on a TAKE's fixed record being at the head
(R183). -/
structure State.Inv (s : State) : Prop where
  staging     : s.store.staging.length ≤ Config.stagingCapacity
  queue       : s.line.queue.length ≤ Config.outQueueCapacity
  events      : s.client.events.length ≤ Config.eventCapacity
  completions : s.client.completions.length ≤ Config.completionCapacity
  scrub       : s.media.scrub.length ≤ Config.scrubCapacity
  repair      : s.repair.list.length ≤ Config.repairCapacity
  serve       : s.repair.serveQueue.length ≤ Config.serveCapacity
  passed      : s.media.passedOver ≤ 2
  waiting     : s.line.waiting ≠ [] → s.line.queue.length = Config.outQueueCapacity
  ordered     : classOrdered s.line.queue = true
  beat        : ∀ f, s.line.replacement = some f → f.isHeartbeat = true
  map         : mapWf s.store.map = true
  sectors     : sectorsWf s.media.sectors = true
  spares      : s.media.spares.Pairwise (· < ·)
  scanning    : ∀ n, s.media.port = some (.scanRead n) → s.media.spares = []
  idle        : s.media.port = none → s.media.steps = [] ∧ s.media.stepWindow = none
  records     : (s.client.completions.map CompletionRecord.key).Perm s.finishedKeys
  tags        : s.occupiedTags.Nodup
  fixed       : ∀ leading r, s.client.transaction = .opened leading (.completion (some r)) →
    s.client.completions.head? = some r

/-- The scan or the marking of mount is at the port. -/
def MediaOp.ofMount : MediaOp → Bool
  | .scanRead _ | .retireMark _ => true
  | .sectorRead .. | .scrubRead .. | .write _ => false

/-- The blocks of the WAITING staging entries. -/
def waitingBlocks (staging : List StagingEntry) : List Nat :=
  (staging.filter fun e => decide (e.state = .waiting)).map (·.block)

/-- What each condition fixes (R7), and what of the staging queue and the port it rests on: at most
one WAITING entry per block and a WRITING entry at the head alone (R21), which the write at the port
carries, nothing staged during mount and an empty map, scrub list and repair list during its scan
(R61), only LOST blocks on the repair list (R56), and only CLEAN ones on the scrub list (R49). -/
structure State.MapSound (s : State) : Prop where
  clean     : ∀ b, (s.entryOf b).condition = .clean →
    (s.entryOf b).mediaVersion = (s.entryOf b).version ∧ (s.entryOf b).sector.isSome = true
  lost      : ∀ b, (s.entryOf b).condition = .lost → (s.entryOf b).mediaVersion = .nil
  unwritten : ∀ b, (s.entryOf b).condition = .unwritten → s.entryOf b = .unwritten
  staged    : ∀ b, (s.entryOf b).condition = .staged →
    (s.newestStaging b).map (·.version) = some (s.entryOf b).version
  held      : ∀ e, e ∈ s.store.staging → (s.entryOf e.block).condition = .staged
  tail      : ∀ e, e ∈ s.store.staging.drop 1 → e.state = .waiting
  single    : (waitingBlocks s.store.staging).Nodup
  port      : ∀ op, s.media.port = some (.write op) →
    ∃ e rest, s.store.staging = e :: rest ∧ e.state = .writing ∧ e.block = op.block
      ∧ e.version = op.version
  mount     : ∀ op, s.media.port = some op → op.ofMount = true →
    s.member.phase = .mounting ∧ s.store.staging = []
  fresh     : ∀ n, s.media.port = some (.scanRead n) →
    s.store.map = [] ∧ s.repair.list = [] ∧ s.media.scrub = []
  listed    : ∀ b, b ∈ s.repair.list → (s.entryOf b).condition = .lost
  scrubbed  : ∀ b, b ∈ s.media.scrub → (s.entryOf b).condition = .clean

/-- The version clock is at least the sequence of every version held in the block map and in the
staging queue (R3). -/
structure State.ClockBound (s : State) : Prop where
  map    : ∀ b, (s.entryOf b).version.seq ≤ s.store.clock
  staged : ∀ e, e ∈ s.store.staging → e.version.seq ≤ s.store.clock

/-! ## Shared vocabulary of the statements -/

/-- t is s after a reset: every unit at the value the spec gives for each of the three resets, the
sectors and the command queue as they were, ATTNn released, and a transaction in progress abandoned
(R8, R21, R44, R60, R61, R96, R99, R102, R107, chapter 6 RESET VALUES, R122, R142, R157, R161, R162,
R166, R190). -/
structure State.Cleared (s t : State) : Prop where
  phase       : t.member.phase = .mounting ∧ t.member.faultReason = .none
  tick        : t.member.tick = 0#32
  timers      : t.member.heartbeatTimer = none ∧ t.member.heartbeatDue = false ∧
    t.member.listenWindow = none
  origin      : t.member.origin = none
  peers       : ∀ n, t.peer n = ⟨.unheard, none, 0#32, none, none⟩
  store       : t.store.clock = 0#32 ∧ t.store.map = [] ∧ t.store.staging = []
  media       : t.media.spares = [] ∧ t.media.retired = [] ∧ t.media.scrub = [] ∧
    t.media.clientRequests = [] ∧ t.media.engineRequests = [] ∧ t.media.passedOver = 0 ∧
    t.media.sparesExhausted = false
  mount       : t.mount.findings = [] ∧ t.mount.marking = []
  line        : t.line.queue = [] ∧ t.line.waiting = [] ∧ t.line.replacement = none ∧
    t.line.discards = 0#16 ∧ t.line.ignoring = false
  proposals   : ∀ i, t.proposal i = Proposal.empty
  reads       : ∀ i, t.readEntry i = ReadEntry.empty
  repair      : t.repair.list = [] ∧ t.repair.fetch = FetchSlot.idle ∧ t.repair.serveQueue = [] ∧
    t.repair.serve = none ∧ t.repair.cursor = Cursor.idle
  client      : t.client.outcome = .none ∧ t.client.tag = 0#8 ∧ t.client.completions = [] ∧
    t.client.events = [] ∧ t.client.dropped = ⟨0, none⟩
  transaction : (s.client.transaction = .closed → t.client.transaction = .closed) ∧
    ∀ leading response, s.client.transaction = .opened leading response →
      t.client.transaction = .abandoned
  attention   : t.attention = false
  sectors     : t.media.sectors = s.media.sectors
  pending     : t.pending = s.pending

/-- t is held in reset (R192): SDO and the line pins are released, MCSn is high and MIO3..MIO0 are
not driven, whatever the media port is at, and ATTNn is released. -/
structure State.Held (t : State) : Prop where
  control   : t.released = false
  port      : t.media.port = none ∧ t.media.steps = [] ∧ t.media.stepWindow = none
  sdo       : ∀ n, t.sdo n = none
  line      : t.lineFrame = none
  select    : t.mediaSelected = false
  drive     : ∀ sends, t.mediaDriven sends = false
  attention : t.attention = false

/-- t has begun mount at sector 0 under these straps (R61, R193). -/
structure State.Mounting (t : State) (straps : Straps) : Prop where
  control : t.control = ⟨false, false, false, straps⟩
  port    : t.media.port = some (.scanRead 0)
  steps   : t.media.steps = [.read 0]
  window  : t.media.stepWindow = some 8

/-- u is s as mount has ended at it and LISTENING is entered: the heartbeat timer and listen window
run, the own entry is PRESENT, the port is free, the findings are gone, and SPARE_LOW is raised
where 8 spares or fewer are free, PHASE after it (R36, R71, R72, R102, R108). -/
structure State.MountEnded (s u : State) (lineActive : Bool) : Prop where
  phase    : u.member.phase = .listening
  timers   : u.member.heartbeatTimer = some s.interval ∧
    u.member.listenWindow = some (3 * s.interval)
  own      : (u.peer s.own).state = .present ∧ (u.peer s.own).reported = some .listening
  peers    : ∀ k, k ≠ s.own → u.peer k = s.peer k
  ignoring : u.line.ignoring = lineActive
  port     : u.media.port = none ∧ u.media.steps = []
  mount    : u.mount = ⟨[], []⟩
  store    : u.store = s.store
  media    : u.media.spares = s.media.spares ∧ u.media.retired = s.media.retired ∧
    u.media.sectors = s.media.sectors
  client   : u.client =
    ((if s.media.spares.length ≤ 8 then
        s.client.raise .spareLow .none (.count s.media.spares.length)
      else s.client).raise .phase .none (.phase .listening))

/-- t is s as the relocation called for by the verify of sector n moves the write to spare m: the
spare leaves the pool, with SPARE_LOW as 8 are left, and the copy is being programmed over these
sector contents (R33, R36). -/
structure State.RelocatedTo (s t : State) (op : WriteOp) (n m : Nat)
    (sectors : List (Nat × SectorContent)) : Prop where
  port    : t.media.port =
    some (.write { op with stage := .verifying m (some n), taken := m :: op.taken })
  steps   : t.media.steps = [.program m (.copy op.block op.version op.data), .read m]
  window  : t.media.stepWindow = some 8
  sectors : t.media.sectors = putKey sectors m (.copy op.block op.version op.data)
  spares  : t.media.spares = s.media.spares.filter (· ≠ m)
  client  : t.client =
    if (s.media.spares.filter (· ≠ m)).length = 8 ∧ s.media.spares.length ≠ 8 then
      s.client.raise .spareLow .none (.count 8)
    else s.client

/-- What a staging entry holds, its state apart. -/
def StagingEntry.content (e : StagingEntry) : Nat × Version × Data × Source :=
  (e.block, e.version, e.data, e.source)

/-- The staging queue's contents, head first. -/
def State.staged (s : State) : List (Nat × Version × Data × Source) :=
  s.store.staging.map StagingEntry.content

/-- A frame that arrives now is received: the station takes part in the line, and the frame did not
begin before its entry to LISTENING (R72, R88, R89). -/
def State.Hears (s : State) : Prop := s.live = true ∧ s.line.ignoring = false

/-- The commands at which a reception ends at a station of the given number (R89): a broken one, a
frame that fails its check or form, one that bears the own number, and a good one of any kind. -/
def Instr.endsReception (own : StationNo) : Instr → Bool
  | .receptionError bits => decide (readLine bits = .broken)
  | .frameDiscarded f => decide (judgeFrame own f = .discarded)
  | .addressConflict f => decide (judgeFrame own f = .foreign)
  | .heartbeatReceived .. | .updateReceived .. | .ackReceived .. | .queryReceived ..
  | .reportReceived .. | .fetchReceived .. | .repairReceived .. | .notHeldReceived ..
  | .digestReceived .. | .rangeDoneReceived .. | .pushReceived .. | .busyReceived ..
  | .notServingReceived .. => true
  | _ => false

/-- A frame of the sender, other than a HEARTBEAT, that is for this station is delivered to it: it
is received, the sender is another station, and it is not in CONFLICT (R89, R92, R94). -/
def State.GetsFrom (s : State) (sender : StationNo) : Prop :=
  s.Hears ∧ sender ≠ s.own ∧ (s.peer sender).state ≠ .conflict

/-- The proposal that an ACK of a block and version matches (R129). -/
def State.AckMatches (s : State) (block : BitVec 16) (v : Version) (i : Fin 8) : Prop :=
  (s.proposal i).running = true ∧ (s.proposal i).block = block.toNat ∧ (s.proposal i).version = v

/-- The units act, and a transaction without a command yet is in progress: one that TRANSACTION_OPEN
opened, or, with none open, the next command is a whole one by itself (R178, log 7). -/
def State.PortReady (s : State) : Prop :=
  s.awake = true ∧ (s.client.transaction = .closed ∨
    ∃ leading, s.client.transaction = .opened leading .silent)

/-- The state with the transaction over. -/
def State.atRise (s : State) : State :=
  { s with client := { s.client with transaction := .closed } }

/-- The leading bytes of the transaction in progress: as fixed at its opening, or, with none open,
those of the moment (R178, R179, log 7). -/
def State.leading (s : State) : List Byte :=
  match s.client.transaction with
  | .opened leading _ => leading
  | _ => [s.statusByte, s.client.outcome.code, s.client.tag]

/-- A frame as a station of the group builds it: its target has the form of its kind, and its
attempt field holds 1..4 (R78, R79). -/
def Frame.wellFormed (f : Frame) : Bool :=
  decide (f.target.isNone = f.body.broadcast) &&
    match f.body with
    | .update _ _ attempt _ _ _ | .query _ attempt _ => attemptOk attempt
    | _ => true

/-- What settling leaves as it was: everything but the port and its arbiter, the spares, the
out-queue, the reads, the repair engine, the completion and event queues and, where catch-up
completes, the phase with what follows from it (log 8). -/
structure State.SettledFrom (s t : State) : Prop where
  control   : t.control = s.control
  pending   : t.pending = s.pending
  mount     : t.mount = s.mount
  clock     : t.store.clock = s.store.clock
  map       : t.store.map = s.store.map
  staged    : t.staged = s.staged
  tick      : t.member.tick = s.member.tick
  fault     : t.member.faultReason = s.member.faultReason
  timer     : t.member.heartbeatTimer = s.member.heartbeatTimer
  due       : t.member.heartbeatDue = s.member.heartbeatDue
  listen    : t.member.listenWindow = s.member.listenWindow
  peers     : ∀ n, n ≠ s.own → t.peer n = s.peer n
  retired   : t.media.retired = s.media.retired
  discards  : t.line.discards = s.line.discards
  beat      : t.line.replacement = s.line.replacement
  ignoring  : t.line.ignoring = s.line.ignoring
  outcome   : t.client.outcome = s.client.outcome
  tag       : t.client.tag = s.client.tag

end Sys2Proof.Machine
end

