-- ==== Sys2Proof/Certificates/Slice0/Obligations.lean ====
section
/-! DEFINITION. The statements about the part. Where a command's own effect may leave a unit with
something to do, the statement gives the state u at the end of that effect and says that the units
then go on from u (`u.settle`); what that may change is a statement of its own (log 8). -/

open Sys2Proof Sys2Proof.Machine

/-! ## Every command -/

/-- A step takes the command at the front of the queue; on an empty queue the block idles, which is
the model's choice (log 3). -/
def Obligations.StepTakesTheFrontCommand : Prop :=
  (∀ (c : Instr) (rest : List Instr) (s : State), s.pending = c :: rest →
    step s = exec c { s with pending := rest }) ∧
  ∀ s : State, s.pending = [] → step s = .next s

/-- Every command takes a next state and leaves the queue of waiting commands alone. -/
def Obligations.EveryCommandGoesOn : Prop :=
  ∀ (c : Instr) (s : State), ∃ t : State, exec c s = .next t ∧ t.pending = s.pending

/-- As the units go on at the end of a command they take one action at a time, in the order serve
slot, cursor, fetch slot, arbiter, which is the model's choice (log 8), and leave the rest as it
was; idle units at a busy port have nothing to do, nor has a station that takes no part in the line.
The serve slot takes the head of its queue; a FETCH is answered NOT_HELD, or with a REPAIR from
staging or from a read; a DIGEST offset by offset with a REPAIR where the held version is newer, a
wanted offset where the peer's is, and at last the RANGE_DONE; it goes on as its frame joins the
out-queue or its read is reported. -/
def Obligations.SettlingKeeps : Prop :=
  (∀ s : State,
    s.SettledFrom s.settle ∧
    (s.live = false → s.settle = s) ∧
    (s.live = true → s.settle = s.settleFor 4096) ∧
    (∀ n, s.progress = none → s.settleFor n = s) ∧
    (∀ n t, s.progress = some t → s.settleFor (n + 1) = t.settleFor n) ∧
    (s.member.phase.serving = false → s.progress = s.arbiterStep) ∧
    (s.member.phase.serving = true →
      (∀ t, s.serveStep = some t → s.progress = some t) ∧
      (∀ t, s.serveStep = none → s.cursorStep = some t → s.progress = some t) ∧
      (∀ t, s.serveStep = none → s.cursorStep = none → s.fetchStep = some t →
        s.progress = some t) ∧
      (s.serveStep = none → s.cursorStep = none → s.fetchStep = none →
        s.progress = s.arbiterStep)) ∧
    (s.media.port.isSome = true →
      (s.member.phase.serving = true →
        s.repair.serve = none ∧ s.repair.serveQueue = [] ∧ s.repair.cursor.state ≠ .pushing ∧
          (s.repair.fetch.state ≠ .idle ∨ s.repair.list = [])) →
      s.settle = s)) ∧
  (∀ s : State, s.repair.serve = none →
    (s.repair.serveQueue = [] → s.serveStep = none) ∧
    ∀ r rest, s.repair.serveQueue = r :: rest →
      s.serveStep = some { s with repair := { s.repair with
        serveQueue := rest, serve := some ⟨r, 0, 0, 0#64, .ready⟩ } }) ∧
  ∀ (job : ServeJob) (s : State), s.repair.serve = some job →
    let id := s.line.nextId
    let peer := job.request.requester
    let slot := fun (j : Option ServeJob) => { s with repair := { s.repair with serve := j } }
    let answers := fun (j : ServeJob) (last : Bool) (body : Body) =>
      (slot (some { j with stage := .placing id last })).bumpId.place id ⟨s.own, some peer, body⟩
    let reads := fun (b : Nat) =>
      let t := slot (some { job with stage := .reading id })
      { t with line := { t.line with nextId := id + 1 }
               media := { t.media with
                 engineRequests := t.media.engineRequests ++ [⟨.serve, id, b⟩] } }
    (job.stage ≠ .ready → s.serveStep = none) ∧
    (∀ block, job.stage = .ready → job.request.kind = .fetch block →
      let m := s.entryOf block.toNat
      (m.condition = .unwritten ∨ m.condition = .lost →
        s.serveStep = some ((slot none).send (some peer) (.notHeld block))) ∧
      (m.condition = .staged → s.serveStep =
        some (answers job true (.repair block m.version (s.stagedData block.toNat)))) ∧
      (m.condition = .clean → s.serveStep = some (reads block.toNat))) ∧
    (∀ range versions, job.stage = .ready → job.request.kind = .digest range versions →
      (∀ i : Fin 64, job.offset = i.val →
        let b := 64 * range.val + i.val
        let m := s.entryOf b
        let d := received (versions.get i)
        let sends := (m.condition = .clean ∨ m.condition = .staged) ∧ newer m.version d = true
        let wants := newer d m.version = true ∨ (m.condition = .lost ∧ d ≠ .nil)
        (sends → m.condition = .staged → s.serveStep =
          some (answers { job with sent := job.sent + 1 } false
            (.repair (BitVec.ofNat 16 b) m.version (s.stagedData b)))) ∧
        (sends → m.condition = .clean → s.serveStep = some (reads b)) ∧
        (¬ sends → wants → s.serveStep =
          some (slot (some { job with offset := job.offset + 1
                                      want := addOffset job.want job.offset }))) ∧
        (¬ sends → ¬ wants → s.serveStep =
          some (slot (some { job with offset := job.offset + 1 })))) ∧
      (64 ≤ job.offset → s.serveStep =
        some (answers job true (.rangeDone range (byteOf job.sent) job.want)))) ∧
    (∀ i last f, job.stage = .placing i last →
      (s.join i f).repair.serve =
        if last then none else some { job with offset := job.offset + 1, stage := .ready }) ∧
    ∀ i b, job.stage = .reading i →
      (∀ v d block, job.request.kind = .fetch block →
        s.report ⟨.serve, i, b⟩ (.readable v d) =
          answers job true (.repair (BitVec.ofNat 16 b) v d)) ∧
      (∀ v d range versions, job.request.kind = .digest range versions →
        s.report ⟨.serve, i, b⟩ (.readable v d) =
          answers { job with sent := job.sent + 1 } false (.repair (BitVec.ofNat 16 b) v d)) ∧
      ∀ report, report = .declined ∨ report = .unreadable →
        s.report ⟨.serve, i, b⟩ report = slot (some { job with stage := .ready })

/-! ## Resets and the tick -/

/-- POWER_ON, and RESETN low for 8 REFCLK periods or more, hold the part in reset: every unit at its
reset value, a transaction in progress abandoned, SDO, ATTNn and the line pins released, MCSn high
and MIO3..MIO0 not driven (the pins as functions of the state, log 37); a shorter RESETN pulse has
no effect. That the reset values stand from the recognition on, the straps of before being kept
meanwhile, is the model's reading (log 25). -/
def Obligations.ResetsHoldThePart : Prop :=
  (∀ s : State, ∃ t : State, exec .powerOn s = .next t ∧ s.Cleared t ∧ t.Held ∧
    (s.client.transaction ≠ .closed → t.client.transaction = .abandoned) ∧
    t.control = { s.control with powerOnHeld := true, restarting := false }) ∧
  (∀ (n : Nat) (s : State), 8 ≤ n → ∃ t : State, exec (.resetn n) s = .next t ∧ s.Cleared t ∧
    t.Held ∧ (s.client.transaction ≠ .closed → t.client.transaction = .abandoned) ∧
    t.control = { s.control with resetnHeld := true, restarting := false }) ∧
  ∀ (n : Nat) (s : State), n < 8 → exec (.resetn n) s = .next s

/-- RESET_RELEASE: the earlier of two overlapping releases only ends its own hold; the later samples
the straps (log 25) and starts mount at sector 0; a part not held is left alone, which is the
model's choice (log 1). -/
def Obligations.ReleaseSamplesStrapsAndMounts : Prop :=
  ∀ (source : ResetSource) (straps : Straps) (s : State),
    (s.released = true → exec (.resetRelease source straps) s = .next s) ∧
    (s.released = false →
      let c := s.control.release source
      ((c.powerOnHeld || c.resetnHeld) = true →
        exec (.resetRelease source straps) s = .next { s with control := c }) ∧
      ((c.powerOnHeld || c.resetnHeld) = false →
        ∃ t : State, exec (.resetRelease source straps) s = .next t ∧ s.Cleared t ∧
          t.Mounting straps))

/-- RESTART closes its transaction and cuts the line off, the cut frame showing unsent (log 15), and
changes nothing else; RESTART_TAKES_EFFECT resets the station once the media port is free, and
changes nothing before that or with no RESTART waiting (log 1). An operation that finishes at the
port in the interval, or in FAULTED, only frees it: a write goes on through its relocations and
marks by the same judgment as ever, each after the mark before it, and changes the sectors and the
port, with the steps it has to come (log 20), alone (log 15, log 19). A port fault then only frees
the port. -/
def Obligations.RestartWaitsForThePort : Prop :=
  (∀ s : State, s.PortReady → exec .restart s = .next { s with
    control := { s.control with restarting := true }
    line := { s.line with queue := s.line.queue.map QueuedFrame.cut }
    client := { s.client with transaction := .closed } }) ∧
  (∀ s : State, s.awake = true → s.client.transaction.deaf = false →
    ∃ t : State, exec .restart s = .next t ∧ t.control = { s.control with restarting := true } ∧
      t.line = { s.line with queue := s.line.queue.map QueuedFrame.cut } ∧
      t.client.transaction = .closed ∧ t.client.completions = s.client.completions ∧
      t.client.outcome = s.client.outcome ∧ t.client.tag = s.client.tag ∧
      t.member = s.member ∧ t.store = s.store ∧ t.media = s.media ∧ t.mount = s.mount ∧
      t.writes = s.writes ∧ t.reads = s.reads ∧ t.repair = s.repair) ∧
  (∀ (straps : Straps) (s : State),
    (s.released = true → s.control.restarting = true → s.media.port = none →
      ∃ t : State, exec (.restartTakesEffect straps) s = .next t ∧ s.Cleared t ∧
        t.Mounting straps) ∧
    (s.media.port ≠ none ∨ s.control.restarting = false →
      exec (.restartTakesEffect straps) s = .next s)) ∧
  ∀ s : State,
    let f := { s with media := { s.media with port := none, steps := [], stepWindow := none } }
    (s.live = false →
      (∀ request sector v reading, s.media.port = some (.sectorRead request sector v) →
        exec (.sectorReadCompletion reading) s = .next f) ∧
      (∀ b sector v reading, s.media.port = some (.scrubRead b sector v) →
        exec (.scrubReadCompletion reading) s = .next f) ∧
      (∀ op written final, s.media.port = some (.write op) → op.stage = .ended written final →
        exec .writeCompletion s = .next f) ∧
      (∀ op n written x, s.media.port = some (.write op) → op.stage = .retiring n written →
        s.media.steps = [x] →
        let spare := s.media.spares.find? fun k => !op.taken.contains k
        (∀ m, spare = some m →
          let copy := SectorContent.copy op.block op.version op.data
          s.answerStep = { s with media := { s.media with
            port := some (.write { op with stage := .verifying m (some n), taken := m :: op.taken })
            steps := [.program m copy, .read m], stepWindow := some 8
            sectors := putKey s.media.sectors m copy } } ∧
          (∀ programError reading, exec (.verify programError reading) s =
            exec (.verify programError reading) s.answerStep) ∧
          exec .writeCompletion s = .next s) ∧
        (spare = none → s.answerStep = s ∧ exec .writeCompletion s = .next f)) ∧
      ∀ op n previous programError reading, s.media.port = some (.write op) →
        op.stage = .verifying n previous →
        let sectors := s.lastStep.media.sectors
        let result := verifyResult programError (readBack (lookupKey sectors n) reading)
        let owed : List MediaStep := match previous with
          | none => []
          | some k => [.mark k]
        let marked := match previous with
          | none => sectors
          | some k => putKey sectors k (.mark k)
        let window : Option Nat := if previous = none then none else some 8
        let spare := s.media.spares.find? fun k => !op.taken.contains k
        let ends := fun written => exec (.verify programError reading) s = .next { s with
          media := { s.media with
            port := some (.write { op with stage := .ended written (some n) })
            steps := owed, stepWindow := window, sectors := marked } }
        let alone := 3 ≤ op.taken.length ∨ (previous = none ∧ spare = none)
        (result = .good → ends true) ∧
        (result ≠ .good → op.taken.length < 3 → previous = none → ∀ m, spare = some m →
          let copy := SectorContent.copy op.block op.version op.data
          exec (.verify programError reading) s = .next { s with
            media := { s.media with
              port := some (.write { op with stage := .verifying m (some n)
                                             taken := m :: op.taken })
              steps := [.program m copy, .read m], stepWindow := some 8
              sectors := putKey sectors m copy } }) ∧
        (result ≠ .good → op.taken.length < 3 → previous ≠ none →
          exec (.verify programError reading) s = .next { s with
            media := { s.media with
              port := some (.write { op with stage := .retiring n (decide (result = .weak)) })
              steps := owed, stepWindow := window, sectors := marked } }) ∧
        (result = .weak → alone → ends true) ∧ (result = .failed → alone → ends false)) ∧
    (s.awake = false →
      (∀ n reading active, s.media.port = some (.scanRead n) →
        exec (.scan reading active) s = .next f) ∧
      ∀ n programError active, s.media.port = some (.retireMark n) →
        exec (.marking programError active) s = .next f) ∧
    (s.released = true → s.awake = false ∨ s.member.phase = .faulted →
      exec .portFault s = .next f)

/-- TICK: the steps answered since the last tick, which the command carries, have each been followed
by the next, with 8 ticks of its own (the model's operand and its reading, log 20); the tick count
rises by one modulo 2^32 and every running window counts one tick, a window at 0 and a heartbeat due
waiting for their expiry commands (log 2); a station in MOUNTING, in FAULTED or waiting for its
RESTART (log 19) counts only the tick and the media step limit; a part held in reset counts nothing.
Nothing else changes, but that a write whose retire mark was answered has moved to its next spare,
with what VerifyFinishesOrRelocates says of it. -/
def Obligations.TickCountsEveryWindow : Prop :=
  (∀ (k : Nat) (s : State),
    s.answerSteps 0 = s ∧ s.answerSteps (k + 1) = s.answerStep.answerSteps k ∧
    (s.media.steps = [] → s.answerStep = s) ∧
    (s.media.steps.length = 1 →
      (∀ op n written, s.media.port = some (.write op) → op.stage ≠ .retiring n written) →
      s.answerStep = s) ∧
    ∀ first next rest, s.media.steps = first :: next :: rest →
      s.answerStep = { s with media := { s.media with
        steps := next :: rest, stepWindow := some 8
        sectors := match next with
          | .program n c => putKey s.media.sectors n c
          | .mark n => putKey s.media.sectors n (.mark n)
          | .read _ => s.media.sectors } }) ∧
  ∀ (answered : Nat) (s : State),
    let m := (s.answerSteps answered).media
    (s.released = false → exec (.tick answered) s = .next s) ∧
    (s.released = true → s.live = false →
      exec (.tick answered) s = .next { s with
        member := { s.member with tick := s.member.tick + 1#32 }
        media := { m with stepWindow := m.stepWindow.map (· - 1) } }) ∧
    (s.live = true →
      ∃ t : State, exec (.tick answered) s = .next t ∧
        t.member.tick = s.member.tick + 1#32 ∧
        (s.member.heartbeatTimer = none →
          t.member.heartbeatTimer = none ∧ t.member.heartbeatDue = s.member.heartbeatDue) ∧
        (∀ n, s.member.heartbeatTimer = some n → n ≤ 1 →
          t.member.heartbeatTimer = some s.interval ∧ t.member.heartbeatDue = true) ∧
        (∀ n, s.member.heartbeatTimer = some n → 1 < n →
          t.member.heartbeatTimer = some (n - 1) ∧
            t.member.heartbeatDue = s.member.heartbeatDue) ∧
        t.member.listenWindow = s.member.listenWindow.map (· - 1) ∧
        (∀ n, t.peer n = { s.peer n with silence := (s.peer n).silence.map (· - 1) }) ∧
        (∀ i, t.proposal i =
          { s.proposal i with window := (s.proposal i).window.map (· - 1) }) ∧
        (∀ i, t.readEntry i = { s.readEntry i with
          queryWindow := (s.readEntry i).queryWindow.map (· - 1)
          fetchWindow := (s.readEntry i).fetchWindow.map (· - 1)
          backOff := (s.readEntry i).backOff.map (· - 1) }) ∧
        t.repair = { s.repair with
          fetch := { s.repair.fetch with
            window := s.repair.fetch.window.map (· - 1)
            backOff := s.repair.fetch.backOff.map (· - 1) }
          cursor := { s.repair.cursor with
            rangeWindow := s.repair.cursor.rangeWindow.map (· - 1)
            pushDeadline := s.repair.cursor.pushDeadline.map (· - 1)
            backOff := s.repair.cursor.backOff.map (· - 1)
            rest := s.repair.cursor.rest.map (· - 1) } } ∧
        t.media = { m with stepWindow := m.stepWindow.map (· - 1) } ∧
        t.member.phase = s.member.phase ∧ t.member.faultReason = s.member.faultReason ∧
        t.member.origin = s.member.origin ∧ t.control = s.control ∧ t.store = s.store ∧
        t.mount = s.mount ∧ t.line = s.line ∧ t.client = (s.answerSteps answered).client)

/-! ## Mount -/

/-- SCAN: each sector's finding is recorded and the next sector is read; after sector 4223 the
findings are resolved, and the first retire mark is programmed, or with an empty marking list mount
ends in LISTENING. The steps at the port are log 20, and that SCAN tells of a frame on the line as
mount ends is log 38. -/
def Obligations.ScanRecordsEachFinding : Prop :=
  ∀ (reading : Reading) (lineActive : Bool) (n : Nat) (s : State),
    s.media.port = some (.scanRead n) → s.awake = true →
    let found := findingOf (readBack (s.sectorContent n) reading)
    let u := { s with mount := { s.mount with findings := s.mount.findings ++ [found] } }
    (n + 1 < 4224 →
      exec (.scan reading lineActive) s = .next { u with
        media := { u.media with
          port := some (.scanRead (n + 1)), steps := [.read (n + 1)], stepWindow := some 8 } }) ∧
    (4224 ≤ n + 1 →
      let r := u.resolve u.mount.findings
      exec (.scan reading lineActive) s = .next (r.nextMark lineActive) ∧
      (∀ m more, r.mount.marking = m :: more →
        exec (.scan reading lineActive) s = .next { r with media := { r.media with
          port := some (.retireMark m), steps := [.mark m], stepWindow := some 8
          sectors := putKey r.media.sectors m (.mark m) } }) ∧
      (r.mount.marking = [] → ∃ w : State,
        exec (.scan reading lineActive) s = .next w.settle ∧ r.MountEnded w lineActive))

/-- A sector reads back as what the part programmed to it: a block copy as a COPY of its block and
version, as a readable sector with its data, and as a GOOD or WEAK verify; a retire mark as a MARK;
a sector not programmed as BLANK (the model's sector memory, log 5). 146 bytes of FFh are BLANK;
other bytes are decoded to what was programmed where at most 4 symbols differ from it, to nothing
where no codeword lies so near, and to no codeword that does not (log 6 for the search). A decoded
sector whose header check fails, whose kind is neither 01h nor 02h, or whose block, sequence or
origin no copy has is UNREADABLE to the scan, and one whose header check fails is FAILED to a
verify. In the header check each byte enters most significant bit first and the result is not
inverted, which is the model's choice (log 39). The outcome of a sector read is CLEAN, CORRECTED or
WEAK, by the symbols corrected, where its readable header carries the block and the expected
version, else UNREADABLE. -/
def Obligations.SectorsReadByTheirHeader : Prop :=
  (∀ (b : Nat) (v : Version) (d : Data) (k : Fin 5), b < 4096 → v.seq ≠ 0#32 →
    let r := readBack (some (.copy b v d)) (.stored k)
    findingOf r = .copy b v k.val ∧
    readOutcome b v r =
      (if k.val = 0 then .clean d else if k.val = 1 then .corrected d else .weak d) ∧
    verifyResult false r = (if k.val = 0 then .good else .weak) ∧
    verifyResult true r = .failed) ∧
  (∀ (n : Nat) (k : Fin 5), findingOf (readBack (some (.mark n)) (.stored k)) = .mark) ∧
  (∀ k : Fin 5, findingOf (readBack none (.stored k)) = .blank) ∧
  (∀ (content : Option SectorContent) (raw : List Byte) (corrected : Option (List Byte)),
    raw.length = 146 →
    let r := readBack content (.image raw corrected)
    (raw = List.replicate 146 0xFF#8 → r = .blank) ∧
    (raw ≠ List.replicate 146 0xFF#8 →
      (∀ c, content = some c → symbolErrors raw c.body ≤ 4 →
        r = .decoded c.body (symbolErrors raw c.body)) ∧
      ((∀ bytes : List Byte, bytes.length = 138 → 4 < symbolErrors raw bytes) →
        r = .undecodable ∧ findingOf r = .unreadable ∧ verifyResult false r = .failed) ∧
      ∀ bytes n, r = .decoded bytes n →
        bytes.length = 138 ∧ n = symbolErrors raw bytes ∧ n ≤ 4)) ∧
  (∀ (k o n1 n0 s3 s2 s1 s0 c1 c0 : Byte) (rest : List Byte) (n : Nat),
    let header := [k, o, n1, n0, s3, s2, s1, s0]
    let r := ReadBack.decoded (header ++ [c1, c0] ++ rest) n
    let checks := bytes16 (checkOf (bitsOfBytes header)) = [c1, c0]
    let block := (word16 n1 n0).toNat
    let seq := word32 s3 s2 s1 s0
    (¬ checks → findingOf r = .unreadable ∧ verifyResult false r = .failed ∧
      ∀ b v, readOutcome b v r = .unreadable) ∧
    (checks → verifyResult false r = if n = 0 then .good else .weak) ∧
    (checks → k = 0x02#8 → findingOf r = .mark) ∧
    (checks → k ≠ 0x01#8 → k ≠ 0x02#8 → findingOf r = .unreadable) ∧
    (checks → k = 0x01#8 →
      (4096 ≤ block ∨ seq = 0#32 ∨ 8 ≤ o.toNat → findingOf r = .unreadable) ∧
      ∀ origin : StationNo, block < 4096 → seq ≠ 0#32 → o.toNat = origin.val →
        findingOf r = .copy block ⟨seq, origin⟩ n)) ∧
  (verifyResult false .blank = .failed ∧ verifyResult false .undecodable = .failed ∧
    ∀ r, verifyResult true r = .failed) ∧
  ∀ (b : Nat) (v : Version) (r : ReadBack),
    let fits := fun bytes : List Byte => ∃ origin block seq,
      headerOf bytes = some (.copy origin block seq) ∧ block.toNat = b ∧ seq = v.seq ∧
        origin.toNat = v.origin.val
    (∀ bytes n, r = .decoded bytes n → fits bytes →
      readOutcome b v r =
        if n = 0 then .clean (decodedData bytes)
        else if n = 1 then .corrected (decodedData bytes)
        else .weak (decodedData bytes)) ∧
    ((∀ bytes n, r = .decoded bytes n → ¬ fits bytes) → readOutcome b v r = .unreadable)

/-- The winner among the candidates of a block is the newest; among equals a spare wins over the
home sector, then the spare with fewer symbols corrected, then the higher-numbered spare. -/
def Obligations.MountWinnerIsBest : Prop :=
  ∀ l : List Candidate,
    (l ≠ [] → ∃ c, winner l = some c) ∧
    ((∀ e ∈ l, ∀ f ∈ l, e.sector = f.sector → e = f) →
      (∀ e ∈ l, ∀ f ∈ l, e.sector < 4096 → f.sector < 4096 → e = f) →
      ∀ c, winner l = some c → c ∈ l ∧ ∀ d, d ∈ l →
        d = c ∨ newer c.version d.version = true ∨
          (c.version = d.version ∧ 4096 ≤ c.sector ∧
            (d.sector < 4096 ∨ c.corrected < d.corrected ∨
              (c.corrected = d.corrected ∧ d.sector < c.sector))))

/-- The candidates of a block are its home sector's copy, if it names the block, and the spares'
copies that name it; blocks 0 to 4095 are decided in ascending order, and then the spares find their
places. A block with a winner becomes CLEAN at its version and sector, a WEAK winner being listed
for scrub or raising SCRUB_FULL, and a home sector that lost to a spare is retired, with a mark to
be written unless it carries one; a block without one is decided by its home sector's finding, a
LOST one being listed for repair or raising REPAIR_FULL. No other block's entry changes. A spare is
in use where an entry names it, retired where it is marked or unreadable, and free otherwise. -/
def Obligations.MountDecidesEachBlock : Prop :=
  (∀ (spares : List (Nat × Candidate)) (b : Nat) (home : Finding) (s : State),
    let t := s.resolveBlock spares b home
    (∀ c, winner (candidatesOf b home spares) = some c →
      t.entryOf b = ⟨some c.sector, c.version, c.version, .clean⟩ ∧
      t.repair.list = s.repair.list ∧
      (c.corrected < 2 → t.media.scrub = s.media.scrub ∧ t.client = s.client) ∧
      (2 ≤ c.corrected → s.media.scrub.length < 16 →
        t.media.scrub = s.media.scrub ++ [b] ∧ t.client = s.client) ∧
      (2 ≤ c.corrected → 16 ≤ s.media.scrub.length →
        t.media.scrub = s.media.scrub ∧
        t.client = s.client.raise .scrubFull (.block b) .none) ∧
      (4096 ≤ c.sector → b ∈ t.media.retired ∧
        t.mount.marking = s.mount.marking ++ (if home = .mark then [] else [b])) ∧
      (c.sector < 4096 → t.media.retired = s.media.retired ∧
        t.mount.marking = s.mount.marking)) ∧
    (winner (candidatesOf b home spares) = none →
      t.mount.marking = s.mount.marking ∧ t.media.scrub = s.media.scrub ∧
      (home = .blank → t = s) ∧
      (home ≠ .blank →
        t.entryOf b = ⟨if home = .mark then none else some b, .nil, .nil, .lost⟩ ∧
        (s.repair.list.length < 32 → t.repair.list = s.repair.list ++ [b] ∧
          t.client = s.client.raise .blockLost (.block b) (.lost .mount)) ∧
        (32 ≤ s.repair.list.length → t.repair.list = s.repair.list ∧
          t.client = (s.client.raise .blockLost (.block b) (.lost .mount)).raise .repairFull
            (.block b) .none)) ∧
      (home = .mark → b ∈ t.media.retired) ∧
      (home ≠ .mark → t.media.retired = s.media.retired)) ∧
    (∀ k, k ≠ b → t.entryOf k = s.entryOf k) ∧ t.store.clock = s.store.clock ∧
      t.store.staging = s.store.staging ∧ t.media.spares = s.media.spares) ∧
  (∀ (b : Nat) (home : Finding) (spares : List (Nat × Candidate)) (c : Candidate),
    c ∈ candidatesOf b home spares ↔
      (home = .copy b c.version c.corrected ∧ c.sector = b) ∨ (b, c) ∈ spares) ∧
  (∀ (first : Nat) (findings : List Finding) (b : Nat) (c : Candidate),
    (b, c) ∈ copiesFrom first findings ↔
      ∃ i, findings[i]? = some (.copy b c.version c.corrected) ∧ c.sector = first + i) ∧
  (∀ (findings : List Finding) (s : State),
    let homes := findings.take 4096
    let spares := findings.drop 4096
    let decided := homes.zipIdx.foldl (init := s) fun u p =>
      u.resolveBlock (copiesFrom 4096 spares) p.2 p.1
    let placed := (spares.zipIdx 4096).foldl (init := decided) fun u p => u.placeSpare p.2 p.1
    s.resolve findings = { placed with store := { placed.store with
      clock := (s.resolve findings).store.clock } }) ∧
  ∀ (n : Nat) (f : Finding) (s : State),
    let t := s.placeSpare n f
    let free := { s with media := { s.media with spares := s.media.spares ++ [n] } }
    (f = .blank → t = free) ∧
    (f = .mark ∨ f = .unreadable → t.media.spares = s.media.spares ∧
      (∀ k, k ∈ t.media.retired ↔ k ∈ s.media.retired ∨ k = n) ∧ t.store = s.store ∧
      t.mount = s.mount ∧ t.client = s.client ∧ t.repair = s.repair) ∧
    ∀ b v k, f = .copy b v k →
      ((s.entryOf b).sector = some n → t = s) ∧ ((s.entryOf b).sector ≠ some n → t = free)

/-- The version clock after mount is the largest sequence of any copy found, or 0, and is at least
the sequence of every version in the block map. -/
def Obligations.MountSetsTheClock : Prop :=
  ∀ (findings : List Finding) (s : State), s.store.map = [] →
    let t := s.resolve findings
    (∀ b v k, Finding.copy b v k ∈ findings → v.seq ≤ t.store.clock) ∧
    (t.store.clock = 0#32 ∨ ∃ b v k, Finding.copy b v k ∈ findings ∧ v.seq = t.store.clock) ∧
    ∀ b, (t.entryOf b).version.seq ≤ t.store.clock

/-- MARKING: with a further mark to write, the next is programmed; with none, mount ends, SPARE_LOW
is raised if 8 spares or fewer are free, and the station enters LISTENING with its heartbeat timer
and listen window, and ignores a frame on the line at that moment, of which MARKING tells (log 38).
The steps at the port are log 20. -/
def Obligations.MarkingEndsInListening : Prop :=
  ∀ (programError lineActive : Bool) (n : Nat) (rest : List Nat) (s : State),
    s.media.port = some (.retireMark n) → s.awake = true → s.mount.marking = n :: rest →
    (∀ m more, rest = m :: more →
      exec (.marking programError lineActive) s = .next { s with
        mount := { s.mount with marking := rest }
        media := { s.media with
          port := some (.retireMark m), steps := [.mark m], stepWindow := some 8
          sectors := putKey s.media.sectors m (.mark m) } }) ∧
    (rest = [] →
      ∃ u : State, exec (.marking programError lineActive) s = .next u.settle ∧
        s.MountEnded u lineActive)

/-! ## Media -/

/-- VERIFY: the sector whose verify called for the relocation is retired, its mark being the next
step to program (the steps at the port, all before the last answered by now, are log 20); GOOD
finishes the write, WEAK and FAILED relocate it to the lowest-numbered spare it has not taken, three
times at most, with SPARE_LOW as the pool falls to 8, a second and a third relocation taking their
spare once that mark has been answered, which TICK or VERIFY tells (with the pool empty then, see
WriteCompletionUpdatesTheMap); and without a relocation WEAK keeps the sector and FAILED fails the
write there, with SPARES_EXHAUSTED the first time that a relocation finds the pool empty. -/
def Obligations.VerifyFinishesOrRelocates : Prop :=
  (∀ (op : WriteOp) (n : Nat) (written : Bool) (x : MediaStep) (s : State),
    s.live = true → s.media.port = some (.write op) → op.stage = .retiring n written →
    s.media.steps = [x] →
    let spare := s.media.spares.find? fun k => !op.taken.contains k
    (∀ m, spare = some m →
      s.RelocatedTo s.answerStep op n m s.media.sectors ∧
      s.answerStep.media.retired = s.media.retired ∧ s.answerStep.store = s.store ∧
      s.answerStep.line = s.line ∧ s.answerStep.member = s.member ∧
      s.answerStep.writes = s.writes ∧ s.answerStep.reads = s.reads ∧
      s.answerStep.repair = s.repair ∧
      ∀ programError reading, exec (.verify programError reading) s =
        exec (.verify programError reading) s.answerStep) ∧
    (spare = none → s.answerStep = s ∧
      ∀ programError reading, exec (.verify programError reading) s = .next s)) ∧
  ∀ (programError : Bool) (reading : Reading) (op : WriteOp) (n : Nat) (previous : Option Nat)
    (s : State),
    s.live = true → s.media.port = some (.write op) → op.stage = .verifying n previous →
    let sectors := s.lastStep.media.sectors
    let r := readBack (lookupKey sectors n) reading
    let owed : List MediaStep := match previous with
      | none => []
      | some k => [.mark k]
    let marked := match previous with
      | none => sectors
      | some k => putKey sectors k (.mark k)
    let window : Option Nat := if previous = none then none else some 8
    let spare := s.media.spares.find? fun k => !op.taken.contains k
    let good := programError = false ∧ ∃ bytes, r = .decoded bytes 0 ∧ headerCheck bytes = true
    let weak := programError = false ∧
      ∃ bytes k, r = .decoded bytes (k + 1) ∧ headerCheck bytes = true
    ∃ t : State, exec (.verify programError reading) s = .next t ∧
      t.store = s.store ∧ t.line = s.line ∧ t.member = s.member ∧ t.writes = s.writes ∧
      t.reads = s.reads ∧ t.repair = s.repair ∧
      (∀ k, k ∈ t.media.retired ↔ k ∈ s.media.retired ∨ previous = some k) ∧
      (good → t.media.port = some (.write { op with stage := .ended true (some n) }) ∧
        t.media.steps = owed ∧ t.media.stepWindow = window ∧ t.media.sectors = marked ∧
        t.media.spares = s.media.spares ∧ t.client = s.client) ∧
      (¬ good → op.taken.length < 3 → previous = none → ∀ m, spare = some m →
        s.RelocatedTo t op n m sectors) ∧
      (¬ good → op.taken.length < 3 → previous ≠ none →
        ∃ written, (written = true ↔ weak) ∧
          t.media.port = some (.write { op with stage := .retiring n written }) ∧
          t.media.steps = owed ∧ t.media.stepWindow = some 8 ∧ t.media.sectors = marked ∧
          t.media.spares = s.media.spares ∧
          t.media.sparesExhausted = s.media.sparesExhausted ∧ t.client = s.client) ∧
      (¬ good → (3 ≤ op.taken.length ∨ (previous = none ∧ spare = none)) →
        (weak → t.media.port = some (.write { op with stage := .ended true (some n) })) ∧
        (¬ weak → t.media.port = some (.write { op with stage := .ended false (some n) })) ∧
        t.media.steps = owed ∧ t.media.stepWindow = window ∧ t.media.sectors = marked ∧
        t.media.spares = s.media.spares ∧
        (3 ≤ op.taken.length → t.client = s.client ∧
          t.media.sparesExhausted = s.media.sparesExhausted) ∧
        (op.taken.length < 3 → t.media.sparesExhausted = true ∧
          t.client = if s.media.sparesExhausted then s.client
            else s.client.raise .sparesExhausted (.block op.block) .none))

/-- WRITE_COMPLETION: the head leaves the staging queue. A write that finished moves the entry to
the final sector at the version written, CLEAN if nothing newer is staged; one that failed leaves no
readable copy, and without a newer staging entry the block is LOST and handed to the repair list,
unless the failed entry came from a REPAIR. Where a relocation waits for the mark before it and then
finds the pool empty, the mark is the write's last step (log 20): SPARES_EXHAUSTED is raised as the
pool is first found so, and the write has ended at the sector it was called for. -/
def Obligations.WriteCompletionUpdatesTheMap : Prop :=
  (∀ (op : WriteOp) (n : Nat) (written : Bool) (s : State),
    s.live = true → s.media.port = some (.write op) → op.stage = .retiring n written →
    let spare := s.media.spares.find? fun k => !op.taken.contains k
    (spare ≠ none → exec .writeCompletion s = .next s) ∧
    (spare = none → exec .writeCompletion s = exec .writeCompletion { s with
      media := { s.media with
        port := some (.write { op with stage := .ended written (some n) })
        steps := [], stepWindow := none, sparesExhausted := true }
      client := if s.media.sparesExhausted then s.client
        else s.client.raise .sparesExhausted (.block op.block) .none })) ∧
  ∀ (op : WriteOp) (written : Bool) (final : Option Nat) (e : StagingEntry)
    (rest : List StagingEntry) (s : State),
    s.live = true → mapWf s.store.map = true → s.media.port = some (.write op) →
    op.stage = .ended written final → s.store.staging = e :: rest →
    let m := s.entryOf op.block
    let sector := if final.isSome then final else m.sector
    let another := ∃ x, x ∈ rest ∧ x.block = op.block
    ∃ u : State, exec .writeCompletion s = .next u.settle ∧
      u.store.staging = rest ∧ u.store.clock = s.store.clock ∧ u.media.port = none ∧
      u.media.steps = [] ∧ u.media.sectors = s.media.sectors ∧ u.media.spares = s.media.spares ∧
      u.media.retired = s.media.retired ∧ u.line = s.line ∧ u.writes = s.writes ∧
      u.reads = s.reads ∧ u.member = s.member ∧
      (∀ b, b ≠ op.block → u.entryOf b = s.entryOf b) ∧
      (∀ n, written = true → final = some n →
        u.client = s.client ∧ u.repair = s.repair ∧
        (another → u.entryOf op.block = ⟨some n, op.version, m.version, m.condition⟩) ∧
        (¬ another → u.entryOf op.block = ⟨some n, op.version, m.version, .clean⟩)) ∧
      (written = false → another →
        u.client = s.client ∧ u.repair = s.repair ∧
        u.entryOf op.block = ⟨sector, .nil, m.version, m.condition⟩) ∧
      (written = false → ¬ another →
        u.entryOf op.block = ⟨sector, .nil, m.version, .lost⟩ ∧ op.block ∉ u.media.scrub ∧
        (e.source = .repair →
          u.repair.list = s.repair.list ∧
          u.client = s.client.raise .blockLost (.block op.block) (.lost .write)) ∧
        (e.source ≠ .repair → s.repair.list.length < 32 →
          u.repair.list = s.repair.list ++ [op.block] ∧
          u.client = s.client.raise .blockLost (.block op.block) (.lost .write)) ∧
        (e.source ≠ .repair → 32 ≤ s.repair.list.length →
          u.repair.list = s.repair.list ∧
          u.client = (s.client.raise .blockLost (.block op.block) (.lost .write)).raise
            .repairFull (.block op.block) .none))

/-- SECTOR_READ_COMPLETION: an unreadable CLEAN block becomes LOST and is handed to the repair list,
or raises REPAIR_FULL where 32 stand there; a weak one not on the scrub list is offered as SCRUB,
and where there is no room listed, or raises SCRUB_FULL; any other outcome changes no entry; then
the requester has its report. -/
def Obligations.SectorReadCompletes : Prop :=
  ∀ (reading : Reading) (request : ReadRequest) (sector : Nat) (v : Version) (s : State),
    s.live = true → s.media.port = some (.sectorRead request sector v) →
    let b := request.block
    let m := s.entryOf b
    let o := readOutcome b v (readBack (s.sectorContent sector) reading)
    let f := { s with media := { s.media with port := none, steps := [], stepWindow := none } }
    (∀ d, o = .clean d ∨ o = .corrected d →
      exec (.sectorReadCompletion reading) s =
        .next (f.report request (.readable v d)).settle) ∧
    (∀ d, o = .weak d → m.condition ≠ .clean ∨ b ∈ s.media.scrub →
      exec (.sectorReadCompletion reading) s =
        .next (f.report request (.readable v d)).settle) ∧
    (∀ d u a, o = .weak d → m.condition = .clean → b ∉ s.media.scrub →
      f.offer b v d .scrub = (u, a) →
      (a ≠ .busy → exec (.sectorReadCompletion reading) s =
        .next (u.report request (.readable v d)).settle) ∧
      (a = .busy → s.media.scrub.length < 16 → exec (.sectorReadCompletion reading) s =
        .next (State.report
          { u with media := { u.media with scrub := u.media.scrub ++ [b] } }
          request (.readable v d)).settle) ∧
      (a = .busy → 16 ≤ s.media.scrub.length → exec (.sectorReadCompletion reading) s =
        .next ((u.raise .scrubFull (.block b) .none).report request (.readable v d)).settle)) ∧
    (o = .unreadable → m.condition ≠ .clean →
      exec (.sectorReadCompletion reading) s = .next (f.report request .unreadable).settle) ∧
    (o = .unreadable → m.condition = .clean →
      ∃ u : State, exec (.sectorReadCompletion reading) s =
          .next (u.report request .unreadable).settle ∧
        u.entryOf b = { m with mediaVersion := .nil, condition := .lost } ∧
        (∀ k, k ≠ b → u.entryOf k = s.entryOf k) ∧
        u.media = { f.media with scrub := s.media.scrub.filter (· ≠ b) } ∧
        (s.repair.list.length < 32 → u.repair.list = s.repair.list ++ [b] ∧
          u.client = s.client.raise .blockLost (.block b) (.lost .read)) ∧
        (32 ≤ s.repair.list.length → u.repair.list = s.repair.list ∧
          u.client = (s.client.raise .blockLost (.block b) (.lost .read)).raise .repairFull
            (.block b) .none))

/-- SCRUB_READ_COMPLETION: a readable scrub read is offered as SCRUB, and where it finds no room
listed again, or raises SCRUB_FULL; an unreadable one makes a CLEAN block LOST and hands it to the
repair list, or raises REPAIR_FULL where 32 stand there. -/
def Obligations.ScrubReadCompletes : Prop :=
  ∀ (reading : Reading) (b sector : Nat) (v : Version) (s : State),
    s.live = true → s.media.port = some (.scrubRead b sector v) →
    let m := s.entryOf b
    let o := readOutcome b v (readBack (s.sectorContent sector) reading)
    let f := { s with media := { s.media with port := none, steps := [], stepWindow := none } }
    (∀ d u a, o.data = some d → f.offer b v d .scrub = (u, a) →
      (a ≠ .busy → exec (.scrubReadCompletion reading) s = .next u.settle) ∧
      (a = .busy → s.media.scrub.length < 16 → exec (.scrubReadCompletion reading) s =
        .next (State.settle
          { u with media := { u.media with scrub := u.media.scrub ++ [b] } })) ∧
      (a = .busy → 16 ≤ s.media.scrub.length → exec (.scrubReadCompletion reading) s =
        .next (u.raise .scrubFull (.block b) .none).settle)) ∧
    (o = .unreadable → m.condition ≠ .clean →
      exec (.scrubReadCompletion reading) s = .next f.settle) ∧
    (o = .unreadable → m.condition = .clean →
      ∃ u : State, exec (.scrubReadCompletion reading) s = .next u.settle ∧
        u.entryOf b = { m with mediaVersion := .nil, condition := .lost } ∧
        (∀ k, k ≠ b → u.entryOf k = s.entryOf k) ∧
        u.media = { f.media with scrub := s.media.scrub.filter (· ≠ b) } ∧
        (s.repair.list.length < 32 → u.repair.list = s.repair.list ++ [b] ∧
          u.client = s.client.raise .blockLost (.block b) (.lost .read)) ∧
        (32 ≤ s.repair.list.length → u.repair.list = s.repair.list ∧
          u.client = (s.client.raise .blockLost (.block b) (.lost .read)).raise .repairFull
            (.block b) .none))

/-- A report of a media read reaches the read that asked for it: readable, the read finishes OK with
it; otherwise by the map, OK from staging, BLOCK_LOST or UNWRITTEN. The record joins the completion
queue. -/
def Obligations.ReportFinishesTheRead : Prop :=
  ∀ (i : Fin 4) (id b : Nat) (report : MediaReport) (s : State),
    (s.readEntry i).state = .reading → (s.readEntry i).request = some id →
    (∀ j, j ≠ i → (s.readEntry j).request ≠ some id) →
    let e := s.readEntry i
    let m := s.entryOf e.block
    let t := s.report ⟨.client, id, b⟩ report
    let finished := fun (result : Result) (v : Version) (d : Data) =>
      (t.readEntry i).state = .finished ∧ (t.readEntry i).result = some result ∧
      t.client.completions =
        s.client.completions ++ [.read e.tag result v s.member.phase d] ∧
      (∀ j, j ≠ i → t.readEntry j = s.readEntry j) ∧ t.store = s.store ∧
      t.writes = s.writes ∧ t.repair.list = s.repair.list ∧ t.member = s.member
    (∀ v d, report = .readable v d → finished .ok v d) ∧
    ((∀ v d, report ≠ .readable v d) →
      (m.condition = .staged → finished .ok m.version (s.stagedData e.block)) ∧
      (m.condition = .lost → finished .blockLost m.version Data.zero) ∧
      (m.condition = .unwritten → finished .unwritten .nil Data.zero))

/-- PORT_FAULT in any step of an operation (log 20), between steps and at a free port, and
MEDIA_STEP_LIMIT_EXPIRY when the step is 8 ticks old, end the operation, if any, and place the
station in FAULTED with reason MEDIA: the PHASE event, every membership timer stopped, the frame on
the line cut off and shown unsent (log 15), the findings of a mount discarded, and everything else
frozen as it is. That MEDIA_STEP_LIMIT_EXPIRY with a window that is not due or no step in progress
changes nothing, and that PORT_FAULT changes nothing in a part held in reset, is the model's choice
(log 1). -/
def Obligations.PortFaultEntersFaulted : Prop :=
  ∀ s : State,
    (s.awake = true → s.member.phase ≠ .faulted →
      ∃ t : State, exec .portFault s = .next t ∧
        (s.media.steps ≠ [] → s.media.stepWindow = some 0 →
          exec .mediaStepLimitExpiry s = .next t) ∧
        t.media = { s.media with port := none, steps := [], stepWindow := none } ∧
        t.member.phase = .faulted ∧ t.member.faultReason = .media ∧
        t.member.heartbeatTimer = none ∧ t.member.listenWindow = none ∧
        t.member.tick = s.member.tick ∧
        (∀ n, t.peer n = { s.peer n with silence := none }) ∧
        t.client = s.client.raise .phase .none (.phase .faulted) ∧
        t.line = { s.line with queue := s.line.queue.map QueuedFrame.cut } ∧
        t.mount = ⟨[], []⟩ ∧ t.control = s.control ∧ t.store = s.store ∧ t.writes = s.writes ∧
        t.reads = s.reads ∧ t.repair = s.repair) ∧
    (s.media.stepWindow ≠ some 0 → exec .mediaStepLimitExpiry s = .next s) ∧
    (s.media.steps = [] → exec .mediaStepLimitExpiry s = .next s) ∧
    (s.released = false → exec .portFault s = .next s)

/-- The media arbiter's choice at a free port: after two reads passed over it the waiting head's
write; else the oldest client read, the oldest repair engine read, the head's write, and a scrub
read while the staging queue has room. A read of a block that is not CLEAN is declined. The steps at
the port are log 20. -/
def Obligations.ArbiterChoosesByClass : Prop :=
  ∀ s : State,
    (s.media.port ≠ none → s.arbiterStep = none) ∧
    (s.media.port = none →
      (s.headWaiting = true → s.media.passedOver = 2 ∨
          (s.media.clientRequests = [] ∧ s.media.engineRequests = []) →
        s.arbiterStep = some s.takeWrite) ∧
      (∀ r rest, s.media.clientRequests = r :: rest →
        ¬ (s.headWaiting = true ∧ s.media.passedOver = 2) →
        s.arbiterStep =
          some (State.tryRead { s with media := { s.media with clientRequests := rest } } r)) ∧
      (∀ r rest, s.media.clientRequests = [] → s.media.engineRequests = r :: rest →
        ¬ (s.headWaiting = true ∧ s.media.passedOver = 2) →
        s.arbiterStep =
          some (State.tryRead { s with media := { s.media with engineRequests := rest } } r)) ∧
      (s.media.clientRequests = [] → s.media.engineRequests = [] → s.headWaiting = false →
        (∀ b rest, s.media.scrub = b :: rest → s.store.staging.length < 16 →
          s.arbiterStep = some { s with media := { s.media with
            scrub := rest, stepWindow := some 8
            steps := [.read ((s.entryOf b).sector.getD b)]
            port := some (.scrubRead b ((s.entryOf b).sector.getD b) (s.entryOf b).version) } }) ∧
        (s.media.scrub = [] ∨ 16 ≤ s.store.staging.length → s.arbiterStep = none))) ∧
    ∀ r : ReadRequest,
      ((s.entryOf r.block).condition = .clean →
        s.tryRead r = { s with media := { s.media with
          stepWindow := some 8
          steps := [.read ((s.entryOf r.block).sector.getD r.block)]
          passedOver :=
            if s.headWaiting then min 2 (s.media.passedOver + 1) else s.media.passedOver
          port := some (.sectorRead r ((s.entryOf r.block).sector.getD r.block)
            (s.entryOf r.block).mediaVersion) } }) ∧
      ((s.entryOf r.block).condition ≠ .clean → s.tryRead r = s.report r .declined)

/-- A write just taken is aimed at the sector its map entry names, else at the block's home sector;
if that is retired it begins with a relocation to the lowest-numbered spare, and with no spare it
ends FAILED with nothing programmed. The head becomes WRITING and the passed-over count 0. The steps
at the port are log 20. -/
def Obligations.WriteIsAimedAtItsTarget : Prop :=
  ∀ (e : StagingEntry) (rest : List StagingEntry) (s : State),
    s.live = true → s.store.staging = e :: rest →
    let m := s.entryOf e.block
    let t := s.takeWrite
    let programs := fun n taken =>
      t.media.port =
        some (.write ⟨e.block, e.version, e.data, .verifying n none, taken⟩) ∧
      t.media.sectors = putKey s.media.sectors n (.copy e.block e.version e.data) ∧
      t.media.steps = [.program n (.copy e.block e.version e.data), .read n] ∧
      t.media.stepWindow = some 8
    t.store = { s.store with staging := { e with state := .writing } :: rest } ∧
    t.media.passedOver = 0 ∧ t.media.retired = s.media.retired ∧
    (∀ n, m.sector = some n → programs n [] ∧ t.media.spares = s.media.spares) ∧
    (m.sector = none → e.block ∉ s.media.retired →
      programs e.block [] ∧ t.media.spares = s.media.spares) ∧
    (m.sector = none → e.block ∈ s.media.retired →
      (∀ n more, s.media.spares = n :: more →
        let left := s.media.spares.filter (· ≠ n)
        programs n [n] ∧ t.media.spares = left ∧
        t.client = if left.length = 8 ∧ s.media.spares.length ≠ 8 then
            s.client.raise .spareLow .none (.count 8)
          else s.client) ∧
      (s.media.spares = [] →
        t.media.port = some (.write ⟨e.block, e.version, e.data, .ended false none, []⟩) ∧
        t.media.sectors = s.media.sectors ∧ t.media.steps = [] ∧
        t.media.sparesExhausted = true ∧
        t.client = if s.media.sparesExhausted then s.client
          else s.client.raise .sparesExhausted (.block e.block) .none))

/-! ## Versions and acceptance -/

/-- The order of versions is total: of two unequal versions exactly one is newer, by the larger
sequence and then the larger origin; every written version is newer than nil. -/
def Obligations.VersionOrderIsTotal : Prop :=
  (∀ a b : Version, newer a b = true ↔
    b.seq < a.seq ∨ (a.seq = b.seq ∧ b.origin < a.origin)) ∧
  (∀ a b : Version, a ≠ b →
    (newer a b = true ∧ newer b a = false) ∨ (newer a b = false ∧ newer b a = true)) ∧
  (∀ a : Version, newer a a = false) ∧
  (∀ a b c : Version, newer a b = true → newer b c = true → newer a c = true) ∧
  (∀ v : Version, v.seq ≠ 0#32 → newer v .nil = true ∧ received v = v) ∧
  ∀ v : Version, v.seq = 0#32 → received v = .nil

/-- The judgment of an offer from any source but SCRUB: accepted if newer, or equal on a LOST entry,
and there is room; busy without room; a duplicate if equal otherwise; stale if older, or nil on a
LOST entry. Only an acceptance changes anything. -/
def Obligations.OffersAreJudgedByVersion : Prop :=
  ∀ (b : Nat) (v : Version) (d : Data) (source : Source) (s : State), source ≠ .scrub →
    let m := s.entryOf b
    let w := received v
    let room := ((∃ e, e ∈ s.store.staging ∧ e.block = b ∧ e.state = .waiting) ∨
        s.store.staging.length < 16) ∧
      (source = .push → s.line.queue.length < 16)
    let wanted := newer w m.version = true ∨
      (w = m.version ∧ m.condition = .lost ∧ w ≠ .nil)
    (4096 ≤ b → s.offer b v d source = (s, .stale .nil)) ∧
    (b < 4096 →
      (wanted → room → (s.offer b v d source).2 = .accept) ∧
      (wanted → ¬ room → s.offer b v d source = (s, .busy)) ∧
      (w = m.version → m.condition ≠ .lost → s.offer b v d source = (s, .duplicate)) ∧
      (newer m.version w = true ∨ (w = m.version ∧ m.condition = .lost ∧ w = .nil) →
        s.offer b v d source = (s, .stale m.version)))

/-- The judgment of a SCRUB offer (R12), whole: accepted on a CLEAN entry at its version with room,
busy there without room, else stale; an accepted one leaves the version, stages the bytes at the
tail with source SCRUB, and gives no advance notice and raises no event. -/
def Obligations.ScrubOfferIsJudgedByItself : Prop :=
  ∀ (b : Nat) (v : Version) (d : Data) (s : State), s.MapSound → b < 4096 →
    let m := s.entryOf b
    let t := (s.offer b v d .scrub).1
    (m.condition = .clean → m.version = v → s.store.staging.length < 16 →
      (s.offer b v d .scrub).2 = .accept ∧
      t.entryOf b = { m with condition := .staged } ∧
      t.store.staging = s.store.staging ++ [⟨b, v, d, .scrub, .waiting⟩] ∧
      (∀ k, k ≠ b → t.entryOf k = s.entryOf k) ∧
      t.client = s.client ∧ t.writes = s.writes ∧ t.reads = s.reads ∧ t.repair = s.repair ∧
      t.line = s.line) ∧
    (m.condition = .clean → m.version = v → 16 ≤ s.store.staging.length →
      s.offer b v d .scrub = (s, .busy)) ∧
    (m.condition ≠ .clean ∨ m.version ≠ v →
      s.offer b v d .scrub = (s, .stale m.version))

/-- What an acceptance does: the entry takes the version and is STAGED, its sector and media version
kept; the staging queue takes it in place of the block's WAITING entry or at the tail; the block
leaves the scrub list and the repair list, with BLOCK_REPAIRED, and the fetch slot ends work on it;
and where the version advanced, every running proposal of an older version of the block finishes
SUPERSEDED, a collecting read of the block takes it as the own report, and a NOT_SENT push of the
block takes it. -/
def Obligations.AcceptanceStagesTheVersion : Prop :=
  ∀ (b : Nat) (v : Version) (d : Data) (source : Source) (t : State) (s : State),
    source ≠ .scrub → s.offer b v d source = (t, .accept) →
    let m := s.entryOf b
    let w := received v
    t.entryOf b = { m with version := w, condition := .staged } ∧
    (∀ k, k ≠ b → t.entryOf k = s.entryOf k) ∧
    t.store.clock = s.store.clock ∧ t.media.port = s.media.port ∧
    (∀ pre e post, s.store.staging = pre ++ e :: post → e.block = b → e.state = .waiting →
      (∀ x, x ∈ pre → ¬ (x.block = b ∧ x.state = .waiting)) →
      t.store.staging = pre ++ ⟨b, w, d, source, .waiting⟩ :: post) ∧
    ((∀ e, e ∈ s.store.staging → ¬ (e.block = b ∧ e.state = .waiting)) →
      t.store.staging = s.store.staging ++ [⟨b, w, d, source, .waiting⟩]) ∧
    t.media.scrub = s.media.scrub.filter (· ≠ b) ∧
    t.repair.list = s.repair.list.filter (· ≠ b) ∧
    t.client.events = (if b ∈ s.repair.list then
      s.client.raise .blockRepaired (.block b) .none else s.client).events ∧
    (∀ i, (newer w m.version = true ∧ (s.proposal i).running = true ∧
        (s.proposal i).block = b ∧ newer w (s.proposal i).version = true →
        (t.proposal i).state = .finished ∧ (t.proposal i).result = some .superseded ∧
          (t.proposal i).winning = some w) ∧
      (¬ (newer w m.version = true ∧ (s.proposal i).running = true ∧
        (s.proposal i).block = b ∧ newer w (s.proposal i).version = true) →
        t.proposal i = s.proposal i)) ∧
    (t.repair.fetch = if b ∈ s.repair.list ∧ s.repair.fetch.block = some b then FetchSlot.idle
      else s.repair.fetch) ∧
    (b ∈ s.repair.list → s.repair.fetch.block = some b → (s.line.queue.map (·.id)).Nodup →
      ∀ id, id ∈ s.repair.fetch.frames →
        (∀ x, x ∈ t.line.waiting → x.id ≠ id) ∧
        ∀ q, q ∈ t.line.queue → q.id = id → q.state ≠ .unsent) ∧
    (∀ i, t.readEntry i =
      let e := s.readEntry i
      if newer w m.version = true ∧ (e.state = .querySending ∨ e.state = .queryAwaiting) ∧
          e.block = b then
        { e with reports := e.reports.set s.own (some ⟨w, true⟩) }
      else e) ∧
    (newer w m.version = true → ∀ p, p ∈ t.repair.cursor.pushes → p.block = b →
      p.state = .notSent → p.version = w) ∧
    (s.line.waiting = [] → t.repair.cursor.pushes =
      if newer w m.version = true then
        s.repair.cursor.pushes.map fun p =>
          if p.block = b ∧ p.state = .notSent then { p with version := w } else p
      else s.repair.cursor.pushes)

/-! ## The out-queue and the line -/

/-- TRANSMISSION_START on a quiet line: the head frame goes into arbitration, unless a frame of the
station is on the line or none is queued, and a frame ignored since the entry to LISTENING is over
(log 38); a station that takes no part in the line does nothing (log 1). ARBITRATION_LOST makes the
frame unsent in its place, a heartbeat with the content that waited for it, and lets a withdrawn
frame leave; ARBITRATION_WON lets it be transmitted to its end and places a waiting heartbeat as a
separate frame. -/
def Obligations.AttemptStartsAndEnds : Prop :=
  (∀ s : State,
    (s.live = true → s.sending = none → ∀ q rest, s.line.queue = q :: rest →
      exec .transmissionStart s = .next { s with line := { s.line with
        ignoring := false
        queue := s.line.queue.map fun r =>
          if r.id = q.id then { r with state := .arbitrated false } else r } }) ∧
    (s.live = true → s.sending ≠ none ∨ s.line.queue = [] →
      exec .transmissionStart s = .next { s with line := { s.line with ignoring := false } }) ∧
    (s.live = false → exec .transmissionStart s = .next s)) ∧
  ∀ (q : QueuedFrame) (withdrawn : Bool) (s : State),
    s.live = true → s.sending = some q → q.state = .arbitrated withdrawn →
    (withdrawn = true → exec .arbitrationLost s = .next (s.leaveQueue q.id).settle) ∧
    (withdrawn = false → s.line.replacement = none →
      exec .arbitrationLost s = .next (State.settle { s with line := { s.line with
        queue := s.line.queue.map fun r =>
          if r.id = q.id then { r with state := .unsent } else r } })) ∧
    (∀ f, withdrawn = false → s.line.replacement = some f →
      exec .arbitrationLost s = .next (State.settle { s with line := { s.line with
        replacement := none
        queue := s.line.queue.map fun r =>
          if r.id = q.id then
            (if r.frame.isHeartbeat then { r with state := .unsent, frame := f }
            else { r with state := .unsent })
          else r } })) ∧
    ∀ u : State, u = { s with line := { s.line with
        replacement := none
        queue := s.line.queue.map fun r =>
          if r.id = q.id then { r with state := .transmitted withdrawn } else r } } →
      (s.line.replacement = none → exec .arbitrationWon s = .next u.settle) ∧
      ∀ f, s.line.replacement = some f →
        exec .arbitrationWon s = .next (u.placeHeartbeat f).settle

/-- READ_BACK_MISMATCH on a frame past its arbitration: it becomes unsent in its place; where it was
withdrawn it leaves instead, and where it is a heartbeat and a later one waits or is queued, it
takes that one's content, which leaves (log 10, log 11). -/
def Obligations.MismatchMakesTheFrameUnsent : Prop :=
  ∀ (q : QueuedFrame) (withdrawn : Bool) (s : State),
    s.live = true → s.sending = some q → q.state = .transmitted withdrawn →
    let u := { s with line := { s.line with
      queue := s.line.queue.map fun r =>
        if r.id = q.id then { r with state := .unsent } else r } }
    (withdrawn = true → exec .readBackMismatch s = .next (s.leaveQueue q.id).settle) ∧
    (withdrawn = false → q.frame.isHeartbeat = false →
      exec .readBackMismatch s = .next u.settle) ∧
    (withdrawn = false → q.frame.isHeartbeat = true → State.otherHeartbeat u q.id = none →
      exec .readBackMismatch s = .next u.settle) ∧
    (∀ k f, withdrawn = false → q.frame.isHeartbeat = true →
      State.otherHeartbeat u q.id = some (k, f) →
      exec .readBackMismatch s = .next ((State.replaceFrame u q.id f).withdraw k).settle)

/-- TRANSMISSION_COMPLETION: the frame leaves the queue, its place is handed out, and its producer
goes on: a proposal awaits its ACKs, a read its reports or its REPAIR, the fetch slot its REPAIR,
for 2H ticks each; a DIGEST is followed by 256 ticks for its range, a PUSH by 2H ticks for its ACKs,
the PUSH of a range already done by none (log 22). A frame whose arbitration has had no end of its
own has won it first, and a heartbeat that waited for it is placed (log 24). -/
def Obligations.CompletionStartsTheWindow : Prop :=
  ∀ (q : QueuedFrame) (withdrawn : Bool) (s : State),
    s.live = true → s.sending = some q →
    q.state = .transmitted withdrawn ∨ q.state = .arbitrated withdrawn →
    let won := { s with line := { s.line with
      replacement := none
      queue := s.line.queue.map fun r =>
        if r.id = q.id then { r with state := .transmitted withdrawn } else r } }
    ∀ w : State,
    (q.state = .transmitted withdrawn → w = s) →
    (q.state = .arbitrated withdrawn →
      (s.line.replacement = none → w = won) ∧
      ∀ f, s.line.replacement = some f → w = State.placeHeartbeat won f) →
    let v := w.leaveQueue q.id
    ∃ u : State, exec .transmissionCompletion s = .next u.settle ∧
      u.line = v.line ∧ u.store = s.store ∧ u.media = s.media ∧ u.client = s.client ∧
      u.member = s.member ∧
      (∀ i, u.proposal i =
        if (s.proposal i).state = .sending ∧ q.id ∈ (s.proposal i).frames then
          { s.proposal i with state := .awaiting, window := some (2 * s.interval), frames := [] }
        else s.proposal i) ∧
      (∀ i, u.readEntry i =
        let e := s.readEntry i
        let kept := e.frames.filter (· ≠ q.id)
        if q.id ∈ e.frames then
          if e.state = .querySending then
            { e with state := .queryAwaiting, frames := kept,
                     queryWindow := some (2 * s.interval) }
          else if e.state = .fetchSending then
            { e with state := .fetchAwaiting, frames := kept,
                     fetchWindow := some (2 * s.interval) }
          else { e with frames := kept }
        else e) ∧
      (u.repair.fetch =
        let f := s.repair.fetch
        let kept := f.frames.filter (· ≠ q.id)
        if q.id ∈ f.frames then
          if f.state = .fetchSending then
            { f with state := .fetchAwaiting, frames := kept, window := some (2 * s.interval) }
          else { f with frames := kept }
        else f) ∧
      u.repair.cursor =
        let c := { v.repair.cursor with earlier := v.repair.cursor.earlier.filter (· ≠ q.id) }
        let kept := c.frames.filter (· ≠ q.id)
        if q.id ∈ c.frames then
          if c.state = .digestSending then
            { c with state := .awaitingRange, frames := kept, rangeWindow := some 256 }
          else if c.state = .pushing then
            { c with frames := kept, pushDeadline := some (2 * s.interval) }
          else { c with frames := kept }
        else c

/-- The discard count rises by one, and stays at 65535, for a reception that breaks off, for a frame
that fails its check or its form test, and for an UPDATE or QUERY of another station whose attempt
is outside 1..4; nothing else changes. A reception is one command, at its end (log 18). In MOUNTING
and FAULTED nothing is received (log 1), and the frame that was on the line at the entry to
LISTENING is ignored to its end (R72, log 38). -/
def Obligations.DiscardCountSaturates : Prop :=
  ∀ s : State,
    let t := { s with line := { s.line with
      discards := if s.line.discards = 65535#16 then 65535#16 else s.line.discards + 1#16 } }
    (s.Hears →
      (∀ bits, readLine bits = .broken → exec (.receptionError bits) s = .next t) ∧
      (∀ f, judgeFrame s.own f = .discarded → exec (.frameDiscarded f) s = .next t) ∧
      (∀ n b v a w r d, n ≠ s.own → attemptOk a = false →
        exec (.updateReceived n b v a w r d) s = .next t) ∧
      (∀ n b a w, n ≠ s.own → attemptOk a = false →
        exec (.queryReceived n b a w) s = .next t)) ∧
    (s.live = true → s.line.ignoring = true → ∀ c, Instr.endsReception s.own c = true →
      exec c s = .next { s with line := { s.line with ignoring := false } }) ∧
    (s.live = false → ∀ c, Instr.endsReception s.own c = true → exec c s = .next s)

/-- Every frame that bears the station's own number and is not its own transmission raises
ADDRESS_CONFLICT and places the station in FAULTED with reason ADDRESS, a frame of its own on the
line cut off and shown unsent (log 15). -/
def Obligations.OwnNumberEntersFaulted : Prop :=
  ∀ (c : Instr) (s : State), s.Hears →
    ((∃ f, c = .addressConflict f ∧ judgeFrame s.own f = .foreign) ∨
      (∃ p k g y x z, c = .heartbeatReceived s.own p k g y x z) ∨
      (∃ b v a w r d, c = .updateReceived s.own b v a w r d) ∨
      (∃ n b v o, c = .ackReceived s.own n b v o) ∨
      (∃ b a w, c = .queryReceived s.own b a w) ∨
      (∃ n b v h, c = .reportReceived s.own n b v h) ∨
      (∃ n b, c = .fetchReceived s.own n b) ∨
      (∃ n b v d, c = .repairReceived s.own n b v d) ∨
      (∃ n b, c = .notHeldReceived s.own n b) ∨
      (∃ n r vs, c = .digestReceived s.own n r vs) ∨
      (∃ n r k w, c = .rangeDoneReceived s.own n r k w) ∨
      (∃ n b v d, c = .pushReceived s.own n b v d) ∨
      (∃ n r, c = .busyReceived s.own n r) ∨
      (∃ n r, c = .notServingReceived s.own n r)) →
    ∃ t : State, exec c s = .next t ∧ t.member.phase = .faulted ∧
      t.member.faultReason = .address ∧ t.member.tick = s.member.tick ∧
      t.client = (s.client.raise .addressConflict (.station s.own) .none).raise .phase .none
        (.phase .faulted) ∧
      t.line = { s.line with queue := s.line.queue.map QueuedFrame.cut } ∧
      t.store = s.store ∧ t.media = s.media ∧ t.writes = s.writes ∧ t.reads = s.reads ∧
      t.repair = s.repair ∧ t.control = s.control

/-- A frame is placed in class order behind its equals while fewer than 16 are queued; at a full
queue a class 0 frame is dropped and any other waits. A freed place goes to the waiting frame of
lowest class that has waited longest. Withdrawal discards a waiting frame, takes an unsent one off
the queue and only marks one on the line. -/
def Obligations.PlacesGoByClass : Prop :=
  (∀ (id : Nat) (f : Frame) (s : State),
    (s.line.queue.length < 16 →
      (s.place id f).line.queue =
        s.line.queue.takeWhile (fun q => decide (q.frame.body.cls ≤ f.body.cls)) ++
          ⟨id, s.atJoining f, .unsent⟩ ::
          s.line.queue.dropWhile (fun q => decide (q.frame.body.cls ≤ f.body.cls)) ∧
      (s.place id f).line.waiting = s.line.waiting) ∧
    (16 ≤ s.line.queue.length → f.body.cls = 0 → s.place id f = s) ∧
    (16 ≤ s.line.queue.length → f.body.cls ≠ 0 →
      s.place id f = { s with line := { s.line with
        waiting := s.line.waiting ++ [⟨id, f⟩] } })) ∧
  (∀ s : State,
    (16 ≤ s.line.queue.length ∨ s.line.waiting = [] → s.handOut = s) ∧
    (s.line.queue.length < 16 → s.line.waiting ≠ [] →
      ∃ pre w post, s.line.waiting = pre ++ w :: post ∧
        (∀ x, x ∈ pre → w.frame.body.cls < x.frame.body.cls) ∧
        (∀ x, x ∈ post → w.frame.body.cls ≤ x.frame.body.cls) ∧
        s.handOut = State.join { s with line := { s.line with
          waiting := s.line.waiting.filter (·.id ≠ w.id) } } w.id w.frame)) ∧
  ∀ (id : Nat) (s : State),
    ((∃ w, w ∈ s.line.waiting ∧ w.id = id) →
      s.withdraw id = { s with line := { s.line with
        waiting := s.line.waiting.filter (·.id ≠ id) } }) ∧
    ((∀ w, w ∈ s.line.waiting → w.id ≠ id) → ∀ q,
      s.line.queue.find? (·.id = id) = some q →
      (q.state = .unsent → s.withdraw id =
        State.handOut { s with line := { s.line with
          queue := s.line.queue.eraseP (·.id = id) } }) ∧
      (q.state ≠ .unsent → s.withdraw id = { s with line := { s.line with
        queue := s.line.queue.map fun r => if r.id = id then r.withdrawn else r } }))

/-- HEARTBEAT_TIMER_EXPIRY builds a HEARTBEAT from the values of the moment and places it: in place
of an unsent one, as the replacement of one being arbitrated, in place of one waiting, or as a new
frame. -/
def Obligations.HeartbeatCarriesTheMoment : Prop :=
  ∀ (p : RunPhase) (s : State), s.live = true → s.member.heartbeatDue = true →
    s.member.phase.run = some p →
    let f : Frame := ⟨s.own, none, .heartbeat p s.store.clock (byteOf s.groupSize) 0x41#8
      (byteOf s.media.spares.length) (byteOf s.store.staging.length)⟩
    let u := { s with member := { s.member with heartbeatDue := false } }
    let unsent := ∃ q, q ∈ s.line.queue ∧ q.frame.isHeartbeat = true ∧ q.state = .unsent
    let contends := ∃ q w, q ∈ s.line.queue ∧ q.frame.isHeartbeat = true ∧
      q.state = .arbitrated w
    let waits := ∃ w, w ∈ s.line.waiting ∧ w.frame.isHeartbeat = true
    (unsent → exec .heartbeatTimerExpiry s = .next (State.settle { u with
      line := { s.line with queue := replaceHeartbeat f s.line.queue } })) ∧
    (¬ unsent → contends → exec .heartbeatTimerExpiry s = .next (State.settle { u with
      line := { s.line with replacement := some f } })) ∧
    (¬ unsent → ¬ contends → waits → exec .heartbeatTimerExpiry s = .next (State.settle { u with
      line := { s.line with waiting := s.line.waiting.map fun w =>
        if w.frame.isHeartbeat then ⟨w.id, f⟩ else w } })) ∧
    (¬ unsent → ¬ contends → ¬ waits →
      exec .heartbeatTimerExpiry s = .next
        (State.place { u with line := { s.line with nextId := s.line.nextId + 1 } }
          s.line.nextId f).settle)

/-- A frame of any kind, with every field at every value its kind admits: the bits that a station
drives for it read back as its fields, its fields as the frame it is, and every receiver but its
sender's namesake takes it as good, as the received-frame row of its kind, which carries its fields
(log 18, log 29). That the check is not inverted is the model's choice (log 39). -/
def Obligations.FramesReadBackWhole : Prop :=
  ∀ f : Frame, f.wellFormed = true →
    readLine (lineBits f.raw) = .frame f.raw ∧
    frameForm f.raw = some f ∧
    (∀ own : StationNo, own ≠ f.sender → judgeFrame own f.raw = .good f ∧
      receptionOf own (lineBits f.raw) = some f.arrival) ∧
    judgeFrame f.sender f.raw = .foreign

/-! ## Received frames -/

/-- HEARTBEAT_RECEIVED from another station: a matching one teaches its clock and shows the peer
PRESENT with its phase and clock; one that does not match places the peer in CONFLICT with the
reason. The silence window starts afresh, and the phase machine tests a change, after a peer-lost
notice where there is one (log 17). -/
def Obligations.HeartbeatShowsThePeer : Prop :=
  ∀ (n : StationNo) (p : RunPhase) (clock : BitVec 32) (g geometry spares staging : Byte)
    (s : State), s.Hears → n ≠ s.own →
    let e := s.peer n
    let c := Instr.heartbeatReceived n p clock g geometry spares staging
    let matches_ := geometry = 0x41#8 ∧ g.toNat = s.groupSize
    let shown := (s.learn clock).setPeer n ⟨.present, some p, clock, none, some (3 * s.interval)⟩
    let reason : ConflictReason := if geometry = 0x41#8 then .group else .geometry
    let refused := s.setPeer n { e with state := .conflict, reported := none,
                                        reason := some reason,
                                        silence := some (3 * s.interval) }
    let told := refused.raise .peerConflict (.station n) (.conflict reason)
    (matches_ → e.state = .present → e.reported = some p → exec c s = .next shown.settle) ∧
    (matches_ → e.state = .present → e.reported ≠ some p →
      exec c s = .next shown.phaseTest.settle) ∧
    (matches_ → e.state ≠ .present →
      exec c s = .next (shown.raise .peerHeard (.station n) .none).phaseTest.settle) ∧
    (¬ matches_ → e.state = .unheard ∨ e.state = .silent →
      exec c s = .next told.phaseTest.settle) ∧
    (¬ matches_ → e.state = .present → exec c s = .next (told.peerLost n).phaseTest.settle) ∧
    (¬ matches_ → e.state = .conflict → e.reason = some reason →
      exec c s = .next refused.settle) ∧
    (¬ matches_ → e.state = .conflict → e.reason ≠ some reason →
      exec c s = .next told.settle)

/-- Any other frame from a peer refreshes it, and shows it PRESENT if it was not heard; a frame for
another station, or from a peer in CONFLICT, does nothing more. -/
def Obligations.EveryFrameRefreshesItsSender : Prop :=
  (∀ (n : StationNo) (s : State),
    let e := s.peer n
    (e.state = .unheard ∨ e.state = .silent →
      s.heard n = ((s.setPeer n { e with state := .present, reported := none, reason := none,
                                         silence := some (3 * s.interval) }).raise .peerHeard
        (.station n) .none).phaseTest) ∧
    (e.state = .present ∨ e.state = .conflict →
      s.heard n = s.setPeer n { e with silence := some (3 * s.interval) })) ∧
  ∀ (n target : StationNo) (c : Instr) (s : State), s.Hears → n ≠ s.own →
    (target ≠ s.own ∨ (s.peer n).state = .conflict) →
    ((∃ b v o, c = .ackReceived n target b v o) ∨
      (∃ b v h, c = .reportReceived n target b v h) ∨ (∃ b, c = .fetchReceived n target b) ∨
      (∃ b v d, c = .repairReceived n target b v d) ∨ (∃ b, c = .notHeldReceived n target b) ∨
      (∃ r vs, c = .digestReceived n target r vs) ∨
      (∃ r k w, c = .rangeDoneReceived n target r k w) ∨
      (∃ b v d, c = .pushReceived n target b v d) ∨ (∃ r, c = .busyReceived n target r) ∨
      (∃ r, c = .notServingReceived n target r) ∨
      ((s.peer n).state = .conflict ∧
        ((∃ b v a w r d, c = .updateReceived n b v a w r d ∧ attemptOk a = true) ∨
          ∃ b a w, c = .queryReceived n b a w ∧ attemptOk a = true))) →
    exec c s = .next (s.heard n).settle

/-- UPDATE_RECEIVED: the clock learns its sequence, the version is offered, and where the station is
wanted and the frame is no relay, its ACK goes to the version's origin. -/
def Obligations.UpdateIsOfferedAndAcknowledged : Prop :=
  ∀ (n : StationNo) (b : BitVec 16) (v : Version) (a : Byte) (wanted : StationSet) (relay : Bool)
    (d : Data) (u : State) (answer : Answer) (s : State),
    s.GetsFrom n → attemptOk a = true →
    ((s.heard n).learn v.seq).offer b.toNat v d (if relay then .relay else .peer) = (u, answer) →
    (relay = true ∨ hasStation wanted s.own = false ∨ v.origin = s.own →
      exec (.updateReceived n b v a wanted relay d) s = .next u.settle) ∧
    (relay = false → hasStation wanted s.own = true → v.origin ≠ s.own →
      (answer = .accept ∨ answer = .duplicate →
        exec (.updateReceived n b v a wanted relay d) s =
          .next (u.send (some v.origin) (.ack b v .stored)).settle) ∧
      (∀ m, answer = .stale m →
        exec (.updateReceived n b v a wanted relay d) s =
          .next (u.send (some v.origin) (.ack b v (.stale m))).settle) ∧
      (answer = .busy →
        exec (.updateReceived n b v a wanted relay d) s =
          .next (u.send (some v.origin) (.ack b v .busy)).settle))

/-- PUSH_RECEIVED: the version is offered; on acceptance the relay UPDATE is placed first, and the
pusher has its ACK in every case. -/
def Obligations.PushIsRelayedAndAcknowledged : Prop :=
  ∀ (n : StationNo) (b : BitVec 16) (v : Version) (d : Data) (u : State) (answer : Answer)
    (s : State), s.GetsFrom n →
    ((s.heard n).learn v.seq).offer b.toNat v d .push = (u, answer) →
    let c := Instr.pushReceived n s.own b v d
    (answer = .accept → exec c s =
      .next ((u.send none (.update b v 1#8 0#8 true d)).send (some n) (.ack b v .stored)).settle) ∧
    (answer = .duplicate → exec c s = .next (u.send (some n) (.ack b v .stored)).settle) ∧
    (∀ m, answer = .stale m →
      exec c s = .next (u.send (some n) (.ack b v (.stale m))).settle) ∧
    (answer = .busy → exec c s = .next (u.send (some n) (.ack b v .busy)).settle)

/-- ACK_RECEIVED: the clock learns; a matched STORED adds its sender to the ack set and finishes the
proposal OK at Q stations, a matched STALE finishes it SUPERSEDED by the holder version, a matched
BUSY changes nothing in it. Then the cursor's SENT push of the block and version is settled, or
refused by BUSY, where the sender is its server; that the proposals come before the cursor is the
model's choice (log 33). -/
def Obligations.AckCountsTowardsTheQuorum : Prop :=
  ∀ (n : StationNo) (b : BitVec 16) (v : Version) (o : AckOutcome) (s : State), s.GetsFrom n →
    let h := match o with
      | .stale held => ((s.heard n).learn v.seq).learn held.seq
      | .stored | .busy => (s.heard n).learn v.seq
    let settles := fun u : State =>
      if u.repair.cursor.server = some n then
        { u with repair := { u.repair with cursor := { u.repair.cursor with
          pushes := u.repair.cursor.pushes.map fun p =>
            if p.state = .sent ∧ p.block = b.toNat ∧ p.version = v then
              { p with state := if o = .busy then .refused else .settled }
            else p } } }
      else u
    let c := Instr.ackReceived n s.own b v o
    ((∀ i, ¬ h.AckMatches b v i) ∨ o = .busy → exec c s = .next (settles h).settle) ∧
    ∀ i, h.AckMatches b v i → (∀ j, h.AckMatches b v j → j = i) →
      let p := h.proposal i
      let acks := addStation p.acks n
      (o = .stored → stationCount acks < s.quorum →
        exec c s = .next (settles (h.setProposal i { p with acks := acks })).settle) ∧
      (o = .stored → s.quorum ≤ stationCount acks →
        exec c s = .next (settles ((h.setProposal i { p with acks := acks }).finishProposal i
          .ok none)).settle) ∧
      (∀ held, o = .stale held → exec c s =
        .next (settles (h.finishProposal i .superseded (some held))).settle)

/-- QUERY_RECEIVED: a station in CATCHING_UP, ONLINE or ISOLATED that is wanted answers with a
REPORT of its map entry; any other is silent. -/
def Obligations.QueryIsAnsweredFromTheMap : Prop :=
  ∀ (n : StationNo) (b : BitVec 16) (a : Byte) (wanted : StationSet) (s : State),
    s.GetsFrom n → attemptOk a = true →
    let h := s.heard n
    let m := s.entryOf b.toNat
    ((h.member.phase = .catchingUp ∨ h.member.phase = .online ∨ h.member.phase = .isolated) →
      hasStation wanted s.own = true →
      exec (.queryReceived n b a wanted) s =
        .next (h.send (some n) (.report b m.version
          (decide (m.condition = .clean ∨ m.condition = .staged)))).settle) ∧
    (h.member.phase = .listening ∨ hasStation wanted s.own = false →
      exec (.queryReceived n b a wanted) s = .next h.settle)

/-- REPORT_RECEIVED: the clock learns, and every read collecting for the block enters the report,
entry 0 first (log 35); one that thereby has Q stations ends its collection. The fetch candidates
are then the peers whose held report is newer than the map entry, or equal where the block is not
held, newest first and then lowest number first; with none the read goes the local way, else the
first that is not tried and is PRESENT is asked, and the candidates passed over before it join the
tried set, which is the model's choice (log 40). -/
def Obligations.ReportIsEntered : Prop :=
  (∀ (n : StationNo) (b : BitVec 16) (v : Version) (held : Bool) (s : State), s.GetsFrom n →
    exec (.reportReceived n s.own b v held) s =
      .next ((List.finRange 4).foldl (init := (s.heard n).learn v.seq) fun u i =>
        let e := u.readEntry i
        let e' := { e with reports := e.reports.set n (some ⟨received v, held⟩) }
        if (e.state = .querySending ∨ e.state = .queryAwaiting) ∧ e.block = b.toNat then
          if s.quorum ≤ (List.finRange 8).countP fun k => (e'.reports.get k).isSome then
            (u.setRead i e').endCollection i
          else u.setRead i e'
        else u).settle) ∧
  (∀ (e : ReadEntry) (s : State),
    let m := s.entryOf e.block
    let held := m.condition = .clean ∨ m.condition = .staged
    (∀ n, n ∈ s.formCandidates e ↔ n ≠ s.own ∧ ∃ r, e.reports.get n = some r ∧ r.held = true ∧
      (newer r.version m.version = true ∨ (¬ held ∧ r.version = m.version))) ∧
    (s.formCandidates e).Pairwise fun n k =>
      newer (e.reported n) (e.reported k) = true ∨ (e.reported n = e.reported k ∧ n < k)) ∧
  (∀ (i : Fin 4) (s : State),
    let e := s.readEntry i
    let candidates := s.formCandidates e
    let u := (s.setRead i { e with queryWindow := none, frames := []
                                   candidates := candidates }).withdrawAll e.frames
    (candidates = [] → s.endCollection i = u.beginLocal i) ∧
    (candidates ≠ [] → s.endCollection i = u.nextTarget i)) ∧
  ∀ (candidates : List StationNo) (tried : StationSet) (s : State),
    let passes := fun n : StationNo => hasStation tried n = true ∨ s.presentPeer n = false
    let picked := s.pickTarget candidates tried
    (∀ pre n post, candidates = pre ++ n :: post → (∀ k, k ∈ pre → passes k) → ¬ passes n →
      picked.2 = some n ∧
      ∀ k, hasStation picked.1 k = true ↔ hasStation tried k = true ∨ k ∈ pre) ∧
    ((∀ k, k ∈ candidates → passes k) → picked.2 = none ∧
      ∀ k, hasStation picked.1 k = true ↔ hasStation tried k = true ∨ k ∈ candidates)

/-- FETCH_RECEIVED and DIGEST_RECEIVED: a FETCH is queued in CATCHING_UP, ONLINE and ISOLATED and
ignored in LISTENING; a DIGEST teaches its 64 sequences, is queued in ONLINE and answered
NOT_SERVING elsewhere. A repeat is not queued twice, and at a full serve queue the requester is
answered BUSY. -/
def Obligations.RequestsJoinTheServeQueue : Prop :=
  (∀ (n : StationNo) (b : BitVec 16) (s : State), s.GetsFrom n →
    let h := s.heard n
    (h.member.phase = .listening →
      exec (.fetchReceived n s.own b) s = .next h.settle) ∧
    (h.member.phase = .catchingUp ∨ h.member.phase = .online ∨ h.member.phase = .isolated →
      exec (.fetchReceived n s.own b) s = .next (h.queueRequest ⟨n, .fetch b⟩).settle)) ∧
  (∀ (n : StationNo) (range : Fin 64) (versions : Vector Version 64) (s : State), s.GetsFrom n →
    let h := versions.toList.foldl (fun u v => u.learn v.seq) (s.heard n)
    (h.member.phase = .online →
      exec (.digestReceived n s.own range versions) s =
        .next (h.queueRequest ⟨n, .digest range versions⟩).settle) ∧
    (h.member.phase ≠ .online →
      exec (.digestReceived n s.own range versions) s =
        .next (h.send (some n) (.notServing range)).settle)) ∧
  ∀ (r : ServeRequest) (s : State),
    let queue := s.repair.serveQueue
    let repeats := ∃ q, q ∈ queue ∧ r.same q = true
    let serving := ∃ job, s.repair.serve = some job ∧ r.same job.request = true
    (repeats → s.queueRequest r = { s with repair := { s.repair with
      serveQueue := queue.map fun q => if r.same q then r else q } }) ∧
    (¬ repeats → serving → s.queueRequest r = s) ∧
    (¬ repeats → ¬ serving → queue.length < 4 →
      s.queueRequest r = { s with repair := { s.repair with serveQueue := queue ++ [r] } }) ∧
    (¬ repeats → ¬ serving → 4 ≤ queue.length →
      (∀ b, r.kind = .fetch b →
        s.queueRequest r = s.send (some r.requester) (.busy (.fetch b))) ∧
      (∀ range vs, r.kind = .digest range vs →
        s.queueRequest r = s.send (some r.requester) (.busy (.digest range))))

/-- REPAIR_RECEIVED: the clock learns; where reads ask its sender for the block, the version is
offered once and every such read finishes OK, entry 0 first (log 35), with the version and data the
REPAIR carried; then (log 13), where the fetch slot or the cursor matches, it is offered once for
both: the slot gives its target up at STALE and backs off at BUSY, and the cursor counts the offset
of an ACCEPT or a DUPLICATE until its range is done. The slot matches while it asks the sender for
the block, the cursor a block of its range from its server in DIGEST_SENDING, AWAITING_RANGE and
PUSHING. A slot that gives its target up has tried it and asks the lowest-numbered eligible peer not
tried, or with none waits H ticks where it has tried none, or gives the block up. That the answers
BUSY and STALE withdraw the slot's FETCH still waiting or unsent is the model's reading where R158
is silent (log 21), and that a give-up of a slot with no block or no target leaves the state as it
is is the model's choice (log 27). -/
def Obligations.RepairAnswersItsReader : Prop :=
  (∀ (n : StationNo) (b : Nat) (s : State),
    let f := s.repair.fetch
    let c := s.repair.cursor
    (s.slotMatches n b = true ↔ f.target = some n ∧ f.block = some b ∧
      (f.state = .fetchSending ∨ f.state = .fetchAwaiting ∨ f.state = .backOff)) ∧
    (s.cursorMatches n b = true ↔ c.server = some n ∧ b / 64 = c.range ∧
      (c.state = .digestSending ∨ c.state = .awaitingRange ∨ c.state = .pushing)) ∧
    s.fetchBusy = State.withdrawAll { s with repair := { s.repair with fetch := { f with
      state := .backOff, window := none, backOff := some s.interval, frames := [] } } } f.frames ∧
    (f.block = some b → f.target = some n → s.giveUpFetch =
      (State.withdrawAll { s with repair := { s.repair with fetch := { f with
        tried := addStation f.tried n, window := none, backOff := none
        frames := [] } } } f.frames).chooseFetchTarget b) ∧
    (f.block = none ∨ f.target = none → s.giveUpFetch = s)) ∧
  (∀ (b : Nat) (s : State),
    let f := s.repair.fetch
    let id := s.line.nextId
    let able := fun k : StationNo => k ≠ s.own ∧ (s.peer k).state = .present ∧
      ((s.peer k).reported = some .catchingUp ∨ (s.peer k).reported = some .online ∨
        (s.peer k).reported = some .isolated) ∧ hasStation f.tried k = false
    (∀ k, able k → (∀ j, able j → k ≤ j) → s.chooseFetchTarget b =
      (State.bumpId { s with repair := { s.repair with fetch := { f with
        state := .fetchSending, target := some k, frames := f.frames ++ [id] } } }).place id
          ⟨s.own, some k, .fetch (BitVec.ofNat 16 b)⟩) ∧
    ((∀ k, ¬ able k) → f.tried = 0#8 → s.chooseFetchTarget b =
      { s with repair := { s.repair with fetch := { f with
        state := .peerWait, target := none, backOff := some s.interval } } }) ∧
    ((∀ k, ¬ able k) → f.tried ≠ 0#8 → s.chooseFetchTarget b = { s with
      repair := { s.repair with
        list := s.repair.list.filter (· ≠ b), fetch := FetchSlot.idle }
      client := s.client.raise .blockUnrecovered (.block b) (.count (stationCount f.tried)) })) ∧
  ∀ (n : StationNo) (block : BitVec 16) (v : Version) (d : Data) (s : State), s.GetsFrom n →
    let b := block.toNat
    let h := (s.heard n).learn v.seq
    let asked := fun i : Fin 4 =>
      ((h.readEntry i).state = .fetchSending ∨ (h.readEntry i).state = .fetchAwaiting) ∧
        (h.readEntry i).block = b ∧ (h.readEntry i).target = some n
    let c := Instr.repairReceived n s.own block v d
    ∀ r : State,
      ((∀ i, ¬ asked i) → r = h) →
      ((∃ i, asked i) → r =
        (List.finRange 4).foldl (init := (h.offer b v d .repair).1) fun u i =>
          if ((u.readEntry i).state = .fetchSending ∨ (u.readEntry i).state = .fetchAwaiting) ∧
              (u.readEntry i).block = b ∧ (u.readEntry i).target = some n then
            u.finishRead i .ok v d
          else u) →
      ((∃ i, asked i) → ∀ i, asked i →
        (r.readEntry i).state = .finished ∧ (r.readEntry i).result = some .ok) ∧
      (r.slotMatches n b = false → r.cursorMatches n b = false → exec c s = .next r.settle) ∧
      (r.slotMatches n b = true ∨ r.cursorMatches n b = true → ∀ u answer,
        r.offer b v d .repair = (u, answer) → ∀ w : State,
        (r.slotMatches n b = true → (∃ m, answer = .stale m) → w = u.giveUpFetch) →
        (r.slotMatches n b = true → answer = .busy → w = u.fetchBusy) →
        (r.slotMatches n b = false ∨ answer = .accept ∨ answer = .duplicate → w = u) →
        let k := w.repair.cursor
        let counts := r.cursorMatches n b = true ∧ (answer = .accept ∨ answer = .duplicate) ∧
          (k.state = .digestSending ∨ k.state = .awaitingRange)
        (counts → exec c s = .next (State.settle { w with repair := { w.repair with
          cursor := { k with counted := addOffset k.counted (b % 64) } } })) ∧
        (¬ counts → exec c s = .next w.settle))

/-- NOT_HELD_RECEIVED: a read or the fetch slot that asks its sender for the block gives its target
up and goes to the next, the reads before the slot (log 33); where none asks, nothing more happens.
A peer-lost notice does the same at every read and at the slot that ask the peer, whatever the
block, drops the peer's requests from the serve queue, frees the serve slot of its request, and
makes the cursor drop its server, in this order (log 32). -/
def Obligations.NotHeldMovesToTheNextTarget : Prop :=
  (∀ (n : StationNo) (block : BitVec 16) (s : State), s.GetsFrom n →
    let b := block.toNat
    let h := s.heard n
    let slot := fun u : State =>
      if (u.repair.fetch.state = .fetchSending ∨ u.repair.fetch.state = .fetchAwaiting) ∧
          u.repair.fetch.target = some n ∧ u.repair.fetch.block = some b then u.giveUpFetch
      else u
    exec (.notHeldReceived n s.own block) s =
      .next (slot ((List.finRange 4).foldl (init := h) fun u i =>
        if ((u.readEntry i).state = .fetchSending ∨ (u.readEntry i).state = .fetchAwaiting) ∧
            (u.readEntry i).block = b ∧ (u.readEntry i).target = some n then u.giveUpTarget i
        else u)).settle) ∧
  (∀ (n : StationNo) (s : State),
    let reads := (List.finRange 4).foldl (init := s) fun u i =>
      if ((u.readEntry i).state = .fetchSending ∨ (u.readEntry i).state = .fetchAwaiting) ∧
          (u.readEntry i).target = some n then u.giveUpTarget i
      else u
    let f := reads.repair.fetch
    let slot :=
      if (f.state = .fetchSending ∨ f.state = .fetchAwaiting ∨ f.state = .backOff) ∧
          f.target = some n then reads.giveUpFetch
      else reads
    let queue := { slot with repair := { slot.repair with
      serveQueue := slot.repair.serveQueue.filter (·.requester ≠ n) } }
    ∀ u : State,
      ((∃ job, slot.repair.serve = some job ∧ job.request.requester = n) →
        u = State.stopServe queue) →
      ((∀ job, slot.repair.serve = some job → job.request.requester ≠ n) → u = queue) →
      (u.repair.cursor.state ≠ .idle → u.repair.cursor.server = some n →
        s.peerLost n = u.dropServer) ∧
      (u.repair.cursor.state = .idle ∨ u.repair.cursor.server ≠ some n → s.peerLost n = u)) ∧
  ∀ (job : ServeJob) (s : State), s.repair.serve = some job →
    let free := { s with repair := { s.repair with serve := none } }
    (job.stage = .ready → s.stopServe = free) ∧
    (∀ id, job.stage = .reading id → s.stopServe = { free with media := { s.media with
      engineRequests := s.media.engineRequests.filter (·.id ≠ id) } }) ∧
    ∀ id last, job.stage = .placing id last → s.stopServe = State.withdraw free id

/-- RANGE_DONE_RECEIVED from the server for the awaited range: with every REPAIR counted, one
pending push is formed for each wanted offset, in ascending block order at the map's version, and
the cursor is PUSHING; else the attempt fails. Any other is ignored. In PUSHING the cursor makes the
PUSH of the first NOT_SENT push, from staging or from a read, or removes the push where the block is
not held; the push is SENT as its PUSH joins the out-queue. With every push SETTLED the range is
done, and the next range follows or catch-up completes in ONLINE or ISOLATED; with none NOT_SENT or
SENT and one REFUSED the attempt fails. -/
def Obligations.RangeDoneFormsThePushes : Prop :=
  (∀ (n : StationNo) (range : Fin 64) (sent : Byte) (want : OffsetSet) (s : State), s.GetsFrom n →
    let h := s.heard n
    let c := h.repair.cursor
    let taken := c.state = .awaitingRange ∧ c.server = some n ∧ c.range = range.val
    let stopped := { h with repair := { h.repair with cursor := { c with rangeWindow := none } } }
    (¬ taken → exec (.rangeDoneReceived n s.own range sent want) s = .next h.settle) ∧
    (taken → offsetCount c.counted = sent.toNat →
      exec (.rangeDoneReceived n s.own range sent want) s = .next (State.settle { h with
        repair := { h.repair with cursor := { c with
          rangeWindow := none, state := .pushing, work := .ready
          pushes := ((List.range 64).filter (hasOffset want)).map fun i =>
            ⟨64 * range.val + i, (s.entryOf (64 * range.val + i)).version, .notSent⟩ } } })) ∧
    (taken → offsetCount c.counted ≠ sent.toNat →
      exec (.rangeDoneReceived n s.own range sent want) s =
        .next (State.failAttempt stopped).settle)) ∧
  (∀ s : State,
    let c := s.repair.cursor
    let id := s.line.nextId
    let cursor := fun c : Cursor => { s with repair := { s.repair with cursor := c } }
    (c.state ≠ .pushing ∨ c.work ≠ .ready → s.cursorStep = none) ∧
    (c.state = .pushing → c.work = .ready →
      (∀ pre p post, c.pushes = pre ++ p :: post → p.state = .notSent →
        (∀ q, q ∈ pre → q.state ≠ .notSent) →
        let m := s.entryOf p.block
        (∀ n, m.condition = .staged → c.server = some n → s.cursorStep =
          some ((cursor { c with work := .placing id, frames := c.frames ++ [id] }).bumpId.place id
            ⟨s.own, some n, .push (BitVec.ofNat 16 p.block) m.version (s.stagedData p.block)⟩)) ∧
        (m.condition = .clean →
          let t := cursor { c with work := .reading id }
          s.cursorStep = some { t with
            line := { t.line with nextId := id + 1 }
            media := { t.media with
              engineRequests := t.media.engineRequests ++ [⟨.cursor, id, p.block⟩] } }) ∧
        (m.condition = .unwritten ∨ m.condition = .lost →
          s.cursorStep = some (cursor { c with pushes := pre ++ post }))) ∧
      ((∀ p, p ∈ c.pushes → p.state ≠ .notSent) →
        ((∀ p, p ∈ c.pushes → p.state = .settled) → s.cursorStep = some s.rangeDone) ∧
        ((∃ p, p ∈ c.pushes ∧ p.state ≠ .settled) →
          ((∀ p, p ∈ c.pushes → p.state ≠ .sent) → s.cursorStep = some s.failAttempt) ∧
          ((∃ p, p ∈ c.pushes ∧ p.state = .sent) → s.cursorStep = none))))) ∧
  (∀ s : State,
    let c := s.repair.cursor
    (c.range < 63 → s.rangeDone = State.startDigest { s with repair := { s.repair with
      cursor := { c with range := c.range + 1, attempt := 1, tried := 0#8
                         rangeWindow := none, pushDeadline := none } } }) ∧
    (63 ≤ c.range →
      let t := { s with
        repair := { s.repair with
          cursor := { Cursor.idle with range := 64, earlier := c.earlier ++ c.frames } }
        member := { s.member with origin := none } }
      (s.quorum ≤ s.visible → s.rangeDone = State.enterPhase t .online) ∧
      (s.visible < s.quorum → s.rangeDone = State.enterPhase t .isolated))) ∧
  (∀ (id : Nat) (b : BitVec 16) (v : Version) (d : Data) (n : StationNo) (s : State),
    s.repair.cursor.work = .placing id → ∀ pre p post,
    s.repair.cursor.pushes = pre ++ p :: post → p.state = .notSent →
    (∀ q, q ∈ pre → q.state ≠ .notSent) →
    (s.join id ⟨s.own, some n, .push b v d⟩).repair.cursor = { s.repair.cursor with
      work := .ready, pushes := pre ++ { p with version := v, state := .sent } :: post }) ∧
  ∀ (id b : Nat) (s : State), s.repair.cursor.work = .reading id →
    let c := s.repair.cursor
    let next := s.line.nextId
    (∀ n v d, c.server = some n → s.report ⟨.cursor, id, b⟩ (.readable v d) =
      (State.bumpId { s with repair := { s.repair with cursor := { c with
        work := .placing next, frames := c.frames ++ [next] } } }).place next
          ⟨s.own, some n, .push (BitVec.ofNat 16 b) v d⟩) ∧
    ∀ report, report = .declined ∨ report = .unreadable →
      s.report ⟨.cursor, id, b⟩ report =
        { s with repair := { s.repair with cursor := { c with work := .ready } } }

/-- BUSY_RECEIVED starts a back-off of H ticks at the reads and at the fetch slot that await the
block, and at the cursor that awaits the range; NOT_SERVING_RECEIVED makes the cursor drop its
server for the range. Any other is ignored. -/
def Obligations.BusyAndNotServingAnswers : Prop :=
  (∀ (n : StationNo) (block : BitVec 16) (s : State), s.GetsFrom n →
    let b := block.toNat
    let h := s.heard n
    ∃ u : State, exec (.busyReceived n s.own (.fetch block)) s = .next u.settle ∧
      (∀ i, u.readEntry i =
        let e := h.readEntry i
        if e.state = .fetchAwaiting ∧ e.block = b ∧ e.target = some n ∧ e.backOff = none then
          { e with backOff := some s.interval }
        else e) ∧
      (u.repair =
        let f := h.repair.fetch
        if f.state = .fetchAwaiting ∧ f.target = some n ∧ f.block = some b ∧ f.backOff = none then
          { h.repair with fetch := { f with backOff := some s.interval } }
        else h.repair) ∧
      u.member = h.member ∧ u.store = h.store ∧ u.media = h.media ∧ u.line = h.line ∧
      u.writes = h.writes ∧ u.client = h.client) ∧
  (∀ (n : StationNo) (range : Fin 64) (s : State), s.GetsFrom n →
    let h := s.heard n
    let c := h.repair.cursor
    (c.state = .awaitingRange ∧ c.server = some n ∧ c.range = range.val →
      exec (.busyReceived n s.own (.digest range)) s = .next (State.settle { h with
        repair := { h.repair with cursor := { c with
          state := .digestBackoff, rangeWindow := none, backOff := some s.interval } } })) ∧
    (¬ (c.state = .awaitingRange ∧ c.server = some n ∧ c.range = range.val) →
      exec (.busyReceived n s.own (.digest range)) s = .next h.settle)) ∧
  ∀ (n : StationNo) (range : Fin 64) (s : State), s.GetsFrom n →
    let h := s.heard n
    let c := h.repair.cursor
    let current := c.server = some n ∧ c.range = range.val ∧
      (c.state = .digestSending ∨ c.state = .awaitingRange ∨ c.state = .digestBackoff)
    (current → exec (.notServingReceived n s.own range) s = .next h.dropServer.settle) ∧
    (¬ current → exec (.notServingReceived n s.own range) s = .next h.settle)

/-! ## Membership and the expiries -/

/-- The join test (R109), whole: the lowest-numbered PRESENT peer reporting ONLINE is the server of
a catch-up; else the station founds if its number is lower than that of every PRESENT peer reporting
LISTENING or ISOLATED and the visible count is at least Q; else it stays. -/
def Obligations.JoinTestDecides : Prop :=
  ∀ s : State,
    let reports := fun (n : StationNo) (p : RunPhase) =>
      n ≠ s.own ∧ (s.peer n).state = .present ∧ (s.peer n).reported = some p
    (∀ n, reports n .online → (∀ k, reports k .online → n ≤ k) → s.joinTest = .catchUp n) ∧
    ((∀ n, ¬ reports n .online) →
      ((∀ n, reports n .listening ∨ reports n .isolated → s.own < n) →
        s.quorum ≤ s.visible → s.joinTest = .found) ∧
      (¬ ((∀ n, reports n .listening ∨ reports n .isolated → s.own < n) ∧
        s.quorum ≤ s.visible) → s.joinTest = .stay))

/-- LISTEN_WINDOW_EXPIRY makes the join test: staying changes only the window, founding enters
ONLINE, and a server starts catch-up at range 0, each with its PHASE event; SILENCE_WINDOW_EXPIRY
makes the peer SILENT with PEER_SILENT, tells the readers of a PRESENT one, and then tests the phase
(log 17). The phase test makes the join test in LISTENING once its window has run and in ISOLATED
with Q stations visible, enters ISOLATED from ONLINE below Q, and abandons a catch-up with no ONLINE
peer, back to the phase it came from with its join test. The notice ISOLATED finishes every running
proposal and every collecting read NO_QUORUM, drops every DIGEST served or queued with a NOT_SERVING
to its requester, the oldest of the queue first, and stops the cursor, in an order that is the
model's (log 31, log 35); the notice LISTENING stops the fetch slot, the serve queue and slot and
the cursor. -/
def Obligations.ListenAndSilenceExpire : Prop :=
  (∀ s : State, s.live = true → s.member.listenWindow = some 0 → s.member.phase = .listening →
    let f := { s with member := { s.member with listenWindow := none } }
    (s.joinTest = .stay → exec .listenWindowExpiry s = .next f.settle) ∧
    (s.joinTest = .found → ∃ u : State, exec .listenWindowExpiry s = .next u.settle ∧
      u.member.phase = .online ∧ u.member.listenWindow = none ∧
      (u.peer s.own).state = .present ∧ (u.peer s.own).reported = some .online ∧
      u.client = s.client.raise .phase .none (.phase .online) ∧ u.store = s.store ∧
      u.writes = s.writes ∧ u.reads = s.reads ∧ u.media.port = s.media.port) ∧
    (∀ n, s.joinTest = .catchUp n → ∃ u : State, exec .listenWindowExpiry s = .next u.settle ∧
      u.member.phase = .catchingUp ∧ u.member.origin = some .listening ∧
      u.member.listenWindow = none ∧ (u.peer s.own).reported = some .catchingUp ∧
      u.repair.cursor.state = .digestSending ∧ u.repair.cursor.range = 0 ∧
      u.repair.cursor.server = some n ∧ u.repair.cursor.attempt = 1 ∧
      u.repair.cursor.tried = 0#8 ∧
      u.client = s.client.raise .phase .none (.phase .catchingUp) ∧ u.store = s.store ∧
      u.writes = s.writes ∧ u.reads = s.reads ∧ u.media = s.media)) ∧
  (∀ (n : StationNo) (s : State), s.live = true → (s.peer n).silence = some 0 →
    let told := (s.setPeer n { s.peer n with state := .silent, reported := none, reason := none,
                                             silence := none }).raise .peerSilent (.station n) .none
    ((s.peer n).state = .present →
      exec (.silenceWindowExpiry n) s = .next (told.peerLost n).phaseTest.settle) ∧
    ((s.peer n).state ≠ .present →
      exec (.silenceWindowExpiry n) s = .next told.phaseTest.settle)) ∧
  (∀ s : State,
    let noServer := ∀ n : StationNo,
      ¬ (n ≠ s.own ∧ (s.peer n).state = .present ∧ (s.peer n).reported = some .online)
    (s.member.phase = .listening →
      (s.member.listenWindow = none → s.phaseTest = s.applyJoin .listening) ∧
      (s.member.listenWindow ≠ none → s.phaseTest = s)) ∧
    (s.member.phase = .catchingUp →
      (noServer → s.phaseTest = s.abandonCatchUp) ∧ (¬ noServer → s.phaseTest = s)) ∧
    (s.member.phase = .online →
      (s.visible < s.quorum → s.phaseTest = s.enterPhase .isolated) ∧
      (s.quorum ≤ s.visible → s.phaseTest = s)) ∧
    (s.member.phase = .isolated →
      (s.quorum ≤ s.visible → s.phaseTest = s.applyJoin .isolated) ∧
      (s.visible < s.quorum → s.phaseTest = s)) ∧
    (s.member.phase = .mounting ∨ s.member.phase = .faulted → s.phaseTest = s) ∧
    let stopped := { s.stopCursor with member := { s.member with origin := none } }
    let isolated := State.enterPhase stopped .isolated
    (s.member.origin = some .isolated →
      (isolated.quorum ≤ isolated.visible →
        s.abandonCatchUp = isolated.applyJoin .isolated) ∧
      (isolated.visible < isolated.quorum → s.abandonCatchUp = isolated)) ∧
    (s.member.origin ≠ some .isolated →
      s.abandonCatchUp = (State.enterPhase stopped .listening).applyJoin .listening)) ∧
  (∀ (origin : CatchUpOrigin) (s : State),
    (s.joinTest = .stay → s.applyJoin origin = s) ∧
    (s.joinTest = .found → s.applyJoin origin = s.enterPhase .online) ∧
    ∀ n, s.joinTest = .catchUp n → s.applyJoin origin =
      (State.startCursor { s with member := { s.member with origin := some origin } } n).enterPhase
        .catchingUp) ∧
  (∀ s : State,
    let refused := fun (u : State) (r : ServeRequest) => match r.kind with
      | .digest range _ =>
        u.bumpId.place u.line.nextId ⟨u.own, some r.requester, .notServing range⟩
      | .fetch _ => u
    (s.repair.serve = none → s.isolateServeSlot = s) ∧
    (∀ job, s.repair.serve = some job →
      (∀ b, job.request.kind = .fetch b → s.isolateServeSlot = s) ∧
      (∀ range versions, job.request.kind = .digest range versions →
        s.isolateServeSlot = refused s.stopServe job.request)) ∧
    s.isolateServeQueue = s.repair.serveQueue.foldl refused { s with repair := { s.repair with
      serveQueue := s.repair.serveQueue.filter (·.digestRange.isNone) } }) ∧
  (∀ s : State,
    let told := { s with
      member := { s.member with
        phase := .isolated
        peers := s.member.peers.set s.own
          { s.peer s.own with state := .present, reported := some .isolated } }
      client := s.client.raise .phase .none (.phase .isolated) }
    let proposals := (List.finRange 8).foldl (init := told) fun u i =>
      u.finishProposal i .noQuorum none
    let reads := (List.finRange 4).foldl (init := proposals) fun u i =>
      let e := u.readEntry i
      if e.state = .querySending ∨ e.state = .queryAwaiting then
        u.finishRead i .noQuorum e.bestVersion Data.zero
      else u
    s.enterPhase .isolated = reads.isolateServeSlot.isolateServeQueue.stopCursor) ∧
  ∀ (p : RunPhase) (s : State),
    let t := s.enterPhase p
    let collecting := fun i : Fin 4 =>
      (s.readEntry i).state = .querySending ∨ (s.readEntry i).state = .queryAwaiting
    t.member.phase = phaseOf p ∧ (t.peer s.own).state = .present ∧
    (t.peer s.own).reported = some p ∧ (∀ n, n ≠ s.own → t.peer n = s.peer n) ∧
    t.store = s.store ∧ t.client.events = (s.client.raise .phase .none (.phase (phaseOf p))).events ∧
    (p ≠ .isolated → t.writes = s.writes ∧ t.reads = s.reads ∧
      t.client.completions = s.client.completions) ∧
    (p ≠ .catchingUp → t.repair.cursor.state = .idle) ∧
    (p = .listening → t.repair.fetch = FetchSlot.idle ∧ t.repair.serveQueue = [] ∧
      t.repair.serve = none) ∧
    (p = .isolated →
      (∀ i, ((s.proposal i).running = true → (t.proposal i).state = .finished ∧
          (t.proposal i).result = some .noQuorum) ∧
        ((s.proposal i).running = false → t.proposal i = s.proposal i)) ∧
      (∀ i, (collecting i → (t.readEntry i).state = .finished ∧
          (t.readEntry i).result = some .noQuorum) ∧
        (¬ collecting i → t.readEntry i = s.readEntry i)) ∧
      t.client.completions = s.client.completions ++
        ((List.finRange 8).filter fun i => (s.proposal i).running).map (fun i =>
          .write (s.proposal i).tag .noQuorum (s.proposal i).version .isolated) ++
        ((List.finRange 4).filter fun i => (s.readEntry i).collecting).map (fun i =>
          .read (s.readEntry i).tag .noQuorum (s.readEntry i).bestVersion .isolated Data.zero) ∧
      t.repair.serveQueue = s.repair.serveQueue.filter (·.digestRange.isNone) ∧
      ∀ job, t.repair.serve = some job → job.request.digestRange = none)

/-- ACK_WINDOW_EXPIRY of an entry in AWAITING: after attempt 1, 2 or 3 the next attempt's UPDATE is
built, wanting every station not in the ack set; after attempt 4 the proposal finishes NO_QUORUM. -/
def Obligations.AckWindowTriesFourTimes : Prop :=
  ∀ (i : Fin 8) (s : State), s.live = true → (s.proposal i).state = .awaiting →
    (s.proposal i).window = some 0 →
    let p := s.proposal i
    let id := s.line.nextId
    (p.attempt < 4 → exec (.ackWindowExpiry i) s =
      .next (((s.setProposal i { p with state := .sending, attempt := p.attempt + 1,
                                        window := none, frames := p.frames ++ [id] }).bumpId.place
        id ⟨s.own, none, .update (BitVec.ofNat 16 p.block) p.version (byteOf (p.attempt + 1))
          (~~~p.acks) false p.data⟩).settle)) ∧
    (4 ≤ p.attempt → exec (.ackWindowExpiry i) s =
      .next (((s.setProposal i { p with state := .finished, result := some .noQuorum,
                                        winning := none, window := none,
                                        frames := [] }).withdrawAll p.frames).complete
        (.write p.tag .noQuorum p.version s.member.phase)).settle)

/-- QUERY_WINDOW_EXPIRY queries again the stations that have not reported, or after attempt 4
finishes NO_QUORUM with the best version reported; FETCH_WINDOW_EXPIRY moves to the next candidate,
or finishes NO_QUORUM; READ_BACK_OFF_EXPIRY places the FETCH again while the fetch window runs,
unless the one placed before still waits for a place (log 41). Which candidates join the tried set
is log 40. -/
def Obligations.ReadWindowsExpire : Prop :=
  (∀ (i : Fin 4) (s : State), s.live = true → (s.readEntry i).state = .queryAwaiting →
    (s.readEntry i).queryWindow = some 0 →
    let e := s.readEntry i
    let id := s.line.nextId
    (e.attempt < 4 → exec (.queryWindowExpiry i) s =
      .next (((s.setRead i { e with state := .querySending, attempt := e.attempt + 1,
                                    queryWindow := none, frames := e.frames ++ [id] }).bumpId.place
        id ⟨s.own, none, .query (BitVec.ofNat 16 e.block) (byteOf (e.attempt + 1))
          e.wanted⟩).settle)) ∧
    (4 ≤ e.attempt → exec (.queryWindowExpiry i) s =
      .next (s.finishRead i .noQuorum e.bestVersion Data.zero).settle)) ∧
  (∀ (i : Fin 4) (s : State), s.live = true → (s.readEntry i).state = .fetchAwaiting →
    (s.readEntry i).fetchWindow = some 0 →
    let e := s.readEntry i
    let tried := match e.target with
      | some n => addStation e.tried n
      | none => e.tried
    let u := (s.setRead i { e with tried := tried, fetchWindow := none, backOff := none,
                                   frames := [] }).withdrawAll e.frames
    (∀ n tried', s.pickTarget e.candidates tried = (tried', some n) →
      exec (.fetchWindowExpiry i) s = .next (((u.setRead i { u.readEntry i with
        state := .fetchSending, tried := tried', target := some n
        frames := [u.line.nextId] }).bumpId.place u.line.nextId
          ⟨s.own, some n, .fetch (BitVec.ofNat 16 e.block)⟩).settle)) ∧
    (∀ tried', s.pickTarget e.candidates tried = (tried', none) →
      exec (.fetchWindowExpiry i) s =
        .next (((u.setRead i { u.readEntry i with tried := tried' }).finishRead i .noQuorum
          e.bestVersion Data.zero).settle))) ∧
  ∀ (i : Fin 4) (s : State), s.live = true → (s.readEntry i).backOff = some 0 →
    let e := s.readEntry i
    let id := s.line.nextId
    let waits := ∃ w, w ∈ s.line.waiting ∧ w.id ∈ e.frames
    (∀ n, e.fetchWindow ≠ none → e.target = some n → ¬ waits → exec (.readBackOffExpiry i) s =
      .next (((s.setRead i { e with backOff := none, frames := e.frames ++ [id] }).bumpId.place id
        ⟨s.own, some n, .fetch (BitVec.ofNat 16 e.block)⟩).settle)) ∧
    (e.fetchWindow = none ∨ waits → exec (.readBackOffExpiry i) s =
      .next (s.setRead i { e with backOff := none }).settle)

/-- The fetch slot: IDLE, it takes the head of the repair list and asks the lowest-numbered eligible
peer, or with none waits H ticks in PEER_WAIT; its window's expiry adds the target to the tried set
and the lowest-numbered eligible peer not tried is asked, or with none left the block is given up
with BLOCK_UNRECOVERED; its back-off's expiry sends to the same target again, or in PEER_WAIT
chooses anew. Where the FETCH placed before still waits for a place it places no other (log 41). -/
def Obligations.FetchSlotWindowsExpire : Prop :=
  (∀ s : State,
    let able := fun k : StationNo => k ≠ s.own ∧ (s.peer k).state = .present ∧
      ((s.peer k).reported = some .catchingUp ∨ (s.peer k).reported = some .online ∨
        (s.peer k).reported = some .isolated)
    let id := s.line.nextId
    (s.repair.fetch.state ≠ .idle ∨ s.repair.list = [] → s.fetchStep = none) ∧
    ∀ b rest, s.repair.fetch.state = .idle → s.repair.list = b :: rest →
      (∀ k, able k → (∀ j, able j → k ≤ j) → s.fetchStep =
        some ((State.bumpId { s with repair := { s.repair with
          fetch := ⟨.fetchSending, some b, some k, 0#8, none, none, [id]⟩ } }).place id
            ⟨s.own, some k, .fetch (BitVec.ofNat 16 b)⟩)) ∧
      ((∀ k, ¬ able k) → s.fetchStep = some { s with repair := { s.repair with
        fetch := ⟨.peerWait, some b, none, 0#8, none, some s.interval, []⟩ } })) ∧
  (∀ (b : Nat) (n : StationNo) (s : State), s.live = true → s.repair.fetch.window = some 0 →
    s.repair.fetch.block = some b → s.repair.fetch.target = some n →
    let f := s.repair.fetch
    let tried := addStation f.tried n
    let u := (s.onFetch fun f => { f with tried := tried, window := none, backOff := none,
                                          frames := [] }).withdrawAll f.frames
    let able := fun k : StationNo => k ≠ s.own ∧ (s.peer k).state = .present ∧
      ((s.peer k).reported = some .catchingUp ∨ (s.peer k).reported = some .online ∨
        (s.peer k).reported = some .isolated) ∧ hasStation tried k = false
    (∀ k, able k → (∀ j, able j → k ≤ j) → exec .fetchSlotWindowExpiry s =
      .next (((u.onFetch fun f => { f with state := .fetchSending, target := some k,
                                           frames := [u.line.nextId] }).bumpId.place
        u.line.nextId ⟨s.own, some k, .fetch (BitVec.ofNat 16 b)⟩).settle)) ∧
    ((∀ k, ¬ able k) → ∃ w : State, exec .fetchSlotWindowExpiry s = .next w.settle ∧
      w.repair.fetch = FetchSlot.idle ∧ w.repair.list = s.repair.list.filter (· ≠ b) ∧
      w.client = s.client.raise .blockUnrecovered (.block b) (.count (stationCount tried)) ∧
      w.store = s.store ∧ w.media = s.media ∧ w.member = s.member)) ∧
  ∀ (b : Nat) (s : State), s.live = true → s.repair.fetch.backOff = some 0 →
    s.repair.fetch.block = some b →
    let f := s.repair.fetch
    let id := s.line.nextId
    (f.state = .peerWait → exec .fetchSlotBackOffExpiry s =
      .next ((s.onFetch fun f => { f with backOff := none }).chooseFetchTarget b).settle) ∧
    let waits := ∃ w, w ∈ s.line.waiting ∧ w.id ∈ f.frames
    (f.state = .fetchAwaiting → (f.window = none ∨ waits) → exec .fetchSlotBackOffExpiry s =
      .next (s.onFetch fun f => { f with backOff := none }).settle) ∧
    (∀ n, f.target = some n →
      (f.state = .backOff ∨ (f.state = .fetchAwaiting ∧ f.window ≠ none ∧ ¬ waits)) →
      exec .fetchSlotBackOffExpiry s =
        .next (((s.onFetch fun f =>
          { f with backOff := none, frames := f.frames ++ [id]
                   state := if f.state = .backOff then .fetchSending else f.state }).bumpId.place
          id ⟨s.own, some n, .fetch (BitVec.ofNat 16 b)⟩).settle))

/-- The catch-up cursor: RANGE_WINDOW_EXPIRY, and PUSH_DEADLINE_EXPIRY with a push not SETTLED (log
12), fail the attempt; DIGEST_BACKOFF_EXPIRY makes a new digest with the same attempt number; and
REST_EXPIRY chooses a server afresh. A failed attempt is followed by the next at the same server, or
after the fourth by another server, or with none by a rest of 4H ticks. A digest goes to the server,
for the range, and carries the version of each block of the range as the map has it when the frame
joins the out-queue. With a failed attempt, and
as the cursor stops, every frame of it that waits or is unsent is withdrawn, PUSHes of earlier
ranges among them (log 22), and its read leaves the arbiter (log 36). -/
def Obligations.CursorWindowsExpire : Prop :=
  (∀ s : State, s.live = true → s.repair.cursor.state = .awaitingRange →
    s.repair.cursor.rangeWindow = some 0 →
    exec .rangeWindowExpiry s = .next s.failAttempt.settle) ∧
  (∀ s : State, s.live = true → s.repair.cursor.state = .pushing →
    s.repair.cursor.pushDeadline = some 0 →
    ((∃ p, p ∈ s.repair.cursor.pushes ∧ p.state ≠ .settled) →
      exec .pushDeadlineExpiry s = .next s.failAttempt.settle) ∧
    ((∀ p, p ∈ s.repair.cursor.pushes → p.state = .settled) →
      exec .pushDeadlineExpiry s =
        .next (s.onCursor fun c => { c with pushDeadline := none }).settle)) ∧
  (∀ s : State, s.live = true → s.repair.cursor.state = .digestBackoff →
    s.repair.cursor.backOff = some 0 →
    exec .digestBackoffExpiry s =
      .next (s.onCursor fun c => { c with backOff := none }).startDigest.settle) ∧
  (∀ s : State, s.live = true → s.repair.cursor.state = .resting →
    s.repair.cursor.rest = some 0 →
    exec .restExpiry s =
      .next (s.onCursor fun c => { c with rest := none, tried := 0#8 }).chooseServer.settle) ∧
  (∀ s : State,
    (s.repair.cursor.attempt < 4 → s.failAttempt = (s.haltCursor.onCursor fun c =>
      { c with attempt := c.attempt + 1 }).startDigest) ∧
    (4 ≤ s.repair.cursor.attempt → s.failAttempt = s.dropServer) ∧
    (∀ n, s.repair.cursor.server = some n → s.dropServer = (s.haltCursor.onCursor fun c =>
      { c with tried := addStation c.tried n }).chooseServer) ∧
    (s.repair.cursor.state ≠ .idle → s.stopCursor = s.haltCursor.onCursor fun _ => .idle)) ∧
  (∀ s : State, (s.line.queue.map (·.id)).Nodup →
    let c := s.repair.cursor
    let t := s.haltCursor
    t.repair.cursor = { c with rangeWindow := none, pushDeadline := none, backOff := none
                               rest := none, work := .ready, frames := [], earlier := [] } ∧
    (∀ id, id ∈ c.frames ∨ id ∈ c.earlier →
      (∀ w, w ∈ t.line.waiting → w.id ≠ id) ∧
      ∀ q, q ∈ t.line.queue → q.id = id → q.state ≠ .unsent) ∧
    (∀ id, c.work = .reading id → ∀ r, r ∈ t.media.engineRequests → r.id ≠ id)) ∧
  ∀ s : State,
    let online := fun n : StationNo => n ≠ s.own ∧ (s.peer n).state = .present ∧
      (s.peer n).reported = some .online ∧ hasStation s.repair.cursor.tried n = false
    (∀ n, online n → (∀ k, online k → n ≤ k) → s.chooseServer =
      (s.onCursor fun c => { c with server := some n, attempt := 1 }).startDigest) ∧
    ((∀ n, ¬ online n) → s.chooseServer = s.onCursor fun c =>
      { c with state := .resting, server := none, tried := 0#8,
               rest := some (4 * s.interval) }) ∧
    (∀ (sender target : StationNo) (range : Fin 64) (versions : Vector Version 64),
      ∃ now : Vector Version 64,
        s.atJoining ⟨sender, some target, .digest range versions⟩ =
          ⟨sender, some target, .digest range now⟩ ∧
        ∀ i : Fin 64, now.get i = (s.entryOf (64 * range.val + i.val)).version) ∧
    (∀ f : Frame, (∀ range versions, f.body ≠ .digest range versions) → s.atJoining f = f) ∧
    ∀ n, s.repair.cursor.server = some n →
      let t := s.startDigest
      (∀ range : Fin 64, range.val = s.repair.cursor.range →
        t = (State.bumpId { s with repair := { s.repair with cursor := { s.repair.cursor with
          state := .digestSending, counted := 0#64, pushes := [], work := .ready
          frames := [s.line.nextId]
          earlier := s.repair.cursor.earlier ++ s.repair.cursor.frames } } }).place s.line.nextId
            ⟨s.own, some n, .digest range (Vector.replicate 64 .nil)⟩) ∧
      t.repair.cursor.state = .digestSending ∧ t.repair.cursor.counted = 0#64 ∧
      t.repair.cursor.pushes = [] ∧ t.repair.cursor.range = s.repair.cursor.range ∧
      t.repair.cursor.server = some n ∧ t.repair.cursor.attempt = s.repair.cursor.attempt ∧
      t.repair.cursor.frames = [s.line.nextId] ∧
      t.repair.cursor.earlier = s.repair.cursor.earlier ++ s.repair.cursor.frames

/-! ## The client port -/

/-- TRANSACTION_OPEN fixes the three leading bytes of the moment; STATUS returns the block of the
moment behind them and changes nothing else, and its rise of CSn only closes the transaction;
UNKNOWN_COMMAND and BAD_REQUEST close the transaction in progress, BAD_REQUEST recording its outcome
with the tag that arrived. A command byte that finds no transaction open opens one, and a closing
command is then a whole transaction; that STATUS is also the row of its rise of CSn is the same log
entry (log 7). In the interval of a RESTART a transaction returns FFh, held in reset none is taken,
and either is only closed at its end (SDO as a function of the state, log 37). The whole bytes of
SDI, byte 0 and the packet behind it, make the command. The layouts of the status byte, the status
block and the records, with their codes, are R191's, and outside a reset ATTNn is driven while a
record waits. -/
def Obligations.TransactionsOpenAndClose : Prop :=
  (∀ s : State, s.PortReady →
    exec .transactionOpen s = .next { s with client := { s.client with
      transaction := .opened [s.statusByte, s.client.outcome.code, s.client.tag] .silent } } ∧
    exec .status s = .next { s with client := { s.client with
      transaction := .opened s.leading (.statusBlock s.statusBlock) } } ∧
    exec (.status true) s = .next s.atRise ∧
    (∀ bytes, exec (.unknownCommand bytes) s = .next s.atRise.settle) ∧
    ∀ packet, packetWellFormed packet = false →
      exec (.badRequest packet) s = .next (State.settle { s with client := { s.client with
        transaction := .closed, outcome := .badRequest, tag := packetTag packet } })) ∧
  (∀ s : State,
    (s.released = false → exec .transactionOpen s =
      .next { s with client := { s.client with transaction := .abandoned } }) ∧
    (s.released = true → s.control.restarting = true → exec .transactionOpen s =
      .next { s with client := { s.client with transaction := .ignored } }) ∧
    (s.client.transaction = .abandoned ∨ s.client.transaction = .ignored →
      (∀ n, s.released = true → s.sdo n =
        if s.client.transaction = .ignored then some 0xFF#8 else none) ∧
      exec .take s = .next s ∧ exec .events s = .next s ∧ exec .status s = .next s ∧
      ∀ tag block d clocked bytes packet, ∀ c ∈ [Instr.submitWrite tag block d,
        .submitReadLocal tag block, .submitReadFresh tag block, .submitAbort tag,
        .badRequest packet, .unknownCommand bytes, .takeEnd clocked, .eventsEnd clocked,
        .status true, .restart], exec c s = .next s.atRise) ∧
    (∀ leading block, s.client.transaction = .opened leading (.statusBlock block) →
      exec (.status true) s = .next s.atRise) ∧
    (∀ n, s.sdoBit n = (s.sdo (n / 8)).map fun byte => byte.getMsbD (n % 8)) ∧
    (∀ n, s.atRise.sdo n = none) ∧
    (∀ leading response n, s.released = true → s.client.transaction = .opened leading response →
      s.sdo n = some (((leading ++ response.bytes)[n]?).getD 0xFF#8)) ∧
    (s.client.transaction = .closed → ∀ n, s.sdo n = none)) ∧
  (∀ s : State,
    let phase : Nat := match s.member.phase with
      | .mounting => 0
      | .listening => 1
      | .catchingUp => 2
      | .online => 3
      | .isolated => 4
      | .faulted => 5
    let fault : Nat := match s.member.faultReason with
      | .none => 0
      | .media => 1
      | .address => 2
    s.statusByte.toNat = 32 * phase + 16 * (if s.client.completions = [] then 0 else 1)
      + 8 * (if s.client.events = [] ∧ s.client.dropped.count = 0 then 0 else 1) + 2 * fault ∧
    (s.attention = true ↔ s.released = true ∧ (s.client.completions ≠ [] ∨ s.client.events ≠ [] ∨
      0 < s.client.dropped.count)) ∧
    s.statusBlock.length = 66 ∧
    s.statusBlock.take 18 =
      [BitVec.ofNat 8 phase, BitVec.ofNat 8 fault, byteOf s.groupSize, byteOf s.quorum,
        byteOf s.own.val] ++ bytes32 s.store.clock ++ [byteOf s.media.spares.length] ++
      bytes16 (BitVec.ofNat 16 s.media.retired.length) ++
      [byteOf s.store.staging.length, byteOf s.media.scrub.length, byteOf s.repair.list.length,
        byteOf s.repair.cursor.range] ++ bytes16 s.line.discards ∧
    ∀ n : StationNo, (s.statusBlock.drop (18 + 6 * n.val)).take 6 =
      [match (s.peer n).state with
        | .unheard => 0#8
        | .present => 1#8
        | .silent => 2#8
        | .conflict => 3#8,
      match (s.peer n).reported with
        | none => 0#8
        | some .listening => 1#8
        | some .catchingUp => 2#8
        | some .online => 3#8
        | some .isolated => 4#8] ++
      bytes32 (if n = s.own ∧ (s.peer n).state = .present then s.store.clock
        else (s.peer n).clock)) ∧
  (∀ (tag : Byte) (result : Result) (v : Version) (phase : Phase) (d : Data),
    (CompletionRecord.write tag result v phase).bytes =
      [1#8, tag, result.code] ++ bytes32 v.seq ++ [byteOf v.origin.val, phase.code] ∧
    (CompletionRecord.read tag result v phase d).bytes =
      [2#8, tag, result.code] ++ bytes32 v.seq ++ [byteOf v.origin.val, phase.code] ++ d.toList) ∧
  (∀ (kind : EventKind) (detail : Detail) (count : Nat) (n : StationNo) (b : Nat) (p : Phase),
    EventRecord.bytes ⟨kind, .none, detail, count⟩ =
      [kind.code, 0#8, 0#8, 0#8, detail.code, byteOf count] ∧
    EventRecord.bytes ⟨kind, .station n, detail, count⟩ =
      [kind.code, 1#8, 0#8, byteOf n.val, detail.code, byteOf count] ∧
    EventRecord.bytes ⟨kind, .block b, detail, count⟩ =
      [kind.code, 2#8] ++ bytes16 (BitVec.ofNat 16 b) ++ [detail.code, byteOf count] ∧
    Dropped.bytes ⟨count, some kind⟩ = [0x0D#8, 0#8, 0#8, 0#8, kind.code, byteOf count] ∧
    (Detail.count b).code = byteOf b ∧ (Detail.phase p).code = p.code) ∧
  (Response.silent.bytes = [] ∧ (Response.completion none).bytes = [0#8] ∧
    (Response.event .marker).bytes = [0#8] ∧
    (∀ r, (Response.completion (some r)).bytes = r.bytes) ∧
    (∀ r, (Response.event (.ordinary r)).bytes = r.bytes) ∧
    (∀ held waiting, (Response.event (.dropped held waiting)).bytes = held.bytes) ∧
    ∀ block, (Response.statusBlock block).bytes = block) ∧
  ([Phase.mounting, .listening, .catchingUp, .online, .isolated, .faulted].map Phase.code =
      [0#8, 1#8, 2#8, 3#8, 4#8, 5#8] ∧
    [Result.ok, .superseded, .noQuorum, .aborted, .unwritten, .blockLost].map Result.code =
      [1#8, 2#8, 3#8, 4#8, 5#8, 6#8] ∧
    [SubmitOutcome.none, .accepted, .notReady, .noQuorum, .tableFull, .busy, .badTag, .unknownTag,
      .badBlock, .badRequest, .clockExhausted].map SubmitOutcome.code =
      [0#8, 1#8, 2#8, 3#8, 4#8, 5#8, 6#8, 7#8, 8#8, 9#8, 10#8] ∧
    [EventKind.peerHeard, .peerSilent, .peerConflict, .addressConflict, .phase, .spareLow,
      .sparesExhausted, .blockLost, .blockRepaired, .blockUnrecovered, .scrubFull,
      .repairFull].map EventKind.code =
      [1#8, 2#8, 3#8, 4#8, 5#8, 6#8, 7#8, 8#8, 9#8, 10#8, 11#8, 12#8] ∧
    [Detail.none, .lost .read, .lost .write, .lost .mount, .conflict .group,
      .conflict .geometry].map Detail.code = [0#8, 1#8, 2#8, 3#8, 1#8, 2#8]) ∧
  (∀ (bytes : List Byte) (partial_ : List Bool), partial_.length < 8 →
    wholeBytes (bitsOfBytes bytes ++ partial_) = bytes) ∧
  (∀ (tag n1 n0 : Byte) (d : Data) (more : List Byte),
    commandAtEnd ([1#8, 1#8, tag, n1, n0] ++ more) = .submitReadLocal tag (n1 ++ n0) ∧
    commandAtEnd ([1#8, 2#8, tag, n1, n0] ++ more) = .submitReadFresh tag (n1 ++ n0) ∧
    commandAtEnd ([1#8, 3#8, tag, n1, n0] ++ d.toList ++ more) =
      .submitWrite tag (n1 ++ n0) d ∧
    commandAtEnd ([1#8, 4#8, tag] ++ more) = .submitAbort tag ∧
    commandAtEnd (2#8 :: more) = .takeEnd (more.length + 1) ∧
    commandAtEnd (3#8 :: more) = .eventsEnd (more.length + 1) ∧
    commandAtEnd (4#8 :: more) = .status true ∧
    commandAtEnd (5#8 :: more) = .restart ∧
    commandAtByte 2#8 = some .take ∧ commandAtByte 3#8 = some .events ∧
    commandAtByte 4#8 = some .status) ∧
  (∀ packet : List Byte, packetWellFormed packet = false →
    commandAtEnd (1#8 :: packet) = .badRequest packet) ∧
  commandAtEnd [] = .unknownCommand [] ∧
  ∀ (code : Byte) (more : List Byte), knownCommand code = false →
    commandAtByte code = none ∧ commandAtEnd (code :: more) = .unknownCommand (code :: more)

/-- SUBMIT_WRITE: the refusals in their order, each recorded with the tag; a write that passes takes
the version (clock + 1, own number), is refused BUSY with the clock kept where the staging queue has
no room, and else raises the clock, occupies a FREE entry, the lowest-numbered one by the model's
choice (log 34), with the own number in the ack set, and sends its first UPDATE, or in a group of
one finishes OK. It is judged at the rise of CSn of the transaction in progress, or as a whole
transaction with none open (log 7). -/
def Obligations.SubmitWriteIsJudged : Prop :=
  ∀ (tag : Byte) (block : BitVec 16) (d : Data) (o : State), o.PortReady →
    let s := o.atRise
    let c := Instr.submitWrite tag block d
    let recorded := fun (u : State) (o : SubmitOutcome) =>
      { u with client := { u.client with outcome := o, tag := tag } }
    let online := s.member.phase = .online
    let full := ∀ i, (s.proposal i).state ≠ .free
    let clash := s.tagInUse tag = true
    let outside := 4096 ≤ block.toNat
    let exhausted := s.store.clock = 0xFFFFFFFF#32
    let v : Version := ⟨s.store.clock + 1#32, s.own⟩
    (s.member.phase = .isolated → exec c o = .next (recorded s .noQuorum).settle) ∧
    (s.member.phase ≠ .online → s.member.phase ≠ .isolated →
      exec c o = .next (recorded s .notReady).settle) ∧
    (online → full → exec c o = .next (recorded s .tableFull).settle) ∧
    (online → ¬ full → clash → exec c o = .next (recorded s .badTag).settle) ∧
    (online → ¬ full → ¬ clash → outside → exec c o = .next (recorded s .badBlock).settle) ∧
    (online → ¬ full → ¬ clash → ¬ outside → exhausted →
      exec c o = .next (recorded s .clockExhausted).settle) ∧
    (online → ¬ full → ¬ clash → ¬ outside → ¬ exhausted → ∀ u answer,
      s.offer block.toNat v d .localWrite = (u, answer) →
      (answer ≠ .accept → exec c o = .next (recorded s .busy).settle) ∧
      (answer = .accept → ∀ i, (s.proposal i).state = .free →
        (∀ j, (s.proposal j).state = .free → i ≤ j) →
        let p : Proposal := ⟨.sending, tag, block.toNat, v, d, addStation 0#8 s.own, 1, none,
          none, none, []⟩
        let w := State.setProposal
          { u with store := { u.store with clock := s.store.clock + 1#32 } } i p
        (s.quorum = 1 → exec c o = .next (recorded (w.finishProposal i .ok none) .accepted).settle) ∧
        (1 < s.quorum → exec c o =
          .next (recorded ((State.setProposal w i { p with
              frames := [w.line.nextId] }).bumpId.place w.line.nextId
            ⟨s.own, none, .update (BitVec.ofNat 16 block.toNat) v 1#8
              (~~~(addStation 0#8 s.own)) false d⟩) .accepted).settle)))

/-- SUBMIT_READ_LOCAL and SUBMIT_READ_FRESH: the refusals in their order; an accepted local read, or
a fresh one in a group of one, is answered by the map or asks for a media read; an accepted fresh
read enters its own report and queries every station that has not reported. The FREE entry it
occupies is the lowest-numbered one, by the model's choice (log 34). It is judged at the rise of CSn
of the transaction in progress, or as a whole transaction with none open (log 7). -/
def Obligations.SubmitReadIsJudged : Prop :=
  ∀ (tag : Byte) (block : BitVec 16) (o : State), o.PortReady →
    let s := o.atRise
    let recorded := fun (u : State) (o : SubmitOutcome) =>
      { u with client := { u.client with outcome := o, tag := tag } }
    let b := block.toNat
    let m := s.entryOf b
    let full := ∀ i, (s.readEntry i).state ≠ .free
    let clash := s.tagInUse tag = true
    let local_ := Instr.submitReadLocal tag block
    let fresh := Instr.submitReadFresh tag block
    let running := s.member.phase = .online ∨ s.member.phase = .isolated
    (¬ running → exec local_ o = .next (recorded s .notReady).settle ∧
      exec fresh o = .next (recorded s .notReady).settle) ∧
    (s.member.phase = .isolated → exec fresh o = .next (recorded s .noQuorum).settle) ∧
    (∀ c, (c = local_ ∧ running) ∨ (c = fresh ∧ s.member.phase = .online) →
      (full → exec c o = .next (recorded s .tableFull).settle) ∧
      (¬ full → clash → exec c o = .next (recorded s .badTag).settle) ∧
      (¬ full → ¬ clash → 4096 ≤ b → exec c o = .next (recorded s .badBlock).settle)) ∧
    (¬ clash → b < 4096 → ∀ i, (s.readEntry i).state = .free →
      (∀ j, (s.readEntry j).state = .free → i ≤ j) →
      let e : ReadMode → ReadEntry := fun mode =>
        { ReadEntry.empty with state := .reading, tag := tag, block := b, mode := mode }
      (∀ c, (c = local_ ∧ running) ∨ (c = fresh ∧ s.member.phase = .online ∧ s.quorum = 1) →
        ∃ u : State, exec c o = .next u.settle ∧ u.client.outcome = .accepted ∧
          u.client.tag = tag ∧ (u.readEntry i).tag = tag ∧ (u.readEntry i).block = b ∧
          (m.condition = .clean → (u.readEntry i).state = .reading ∧
            (u.readEntry i).request = some s.line.nextId ∧
            u.media.clientRequests =
              s.media.clientRequests ++ [⟨.client, s.line.nextId, b⟩] ∧
            u.client.completions = s.client.completions) ∧
          (m.condition ≠ .clean → (u.readEntry i).state = .finished ∧
            u.client.completions = s.client.completions ++ [
              if m.condition = .staged then
                .read tag .ok m.version s.member.phase (s.stagedData b)
              else if m.condition = .lost then
                .read tag .blockLost m.version s.member.phase Data.zero
              else .read tag .unwritten .nil s.member.phase Data.zero])) ∧
      (s.member.phase = .online → 1 < s.quorum →
        let e' := { e .fresh with
          state := .querySending, frames := [s.line.nextId]
          reports := ReadEntry.empty.reports.set s.own (some ⟨m.version, m.held⟩) }
        exec fresh o = .next (recorded ((s.setRead i e').bumpId.place s.line.nextId
          ⟨s.own, none, .query (BitVec.ofNat 16 b) 1#8 e'.wanted⟩) .accepted).settle))

/-- SUBMIT_ABORT finishes the running proposal or read of its tag ABORTED, its frames withdrawn and
its media read not yet taken leaving the arbiter, leaves a FINISHED one as
it is, and is refused UNKNOWN_TAG where no entry carries the tag and NOT_READY in MOUNTING and
FAULTED. It is judged at the rise of CSn of the transaction in progress, or as a whole transaction
with none open (log 7). -/
def Obligations.AbortEndsItsEntry : Prop :=
  ∀ (tag : Byte) (o : State), o.PortReady →
    let s := o.atRise
    let c := Instr.submitAbort tag
    let recorded := fun (u : State) (o : SubmitOutcome) =>
      { u with client := { u.client with outcome := o, tag := tag } }
    (s.member.phase.running = false → exec c o = .next (recorded s .notReady).settle) ∧
    (s.member.phase.running = true → s.tagInUse tag = false →
      exec c o = .next (recorded s .unknownTag).settle) ∧
    (s.member.phase.running = true → ∀ i, s.proposalOf tag = some i →
      let p := s.proposal i
      (p.running = true → exec c o = .next (recorded (((s.setProposal i { p with
          state := .finished, result := some .aborted, winning := none, window := none,
          frames := [] }).withdrawAll p.frames).complete
            (.write tag .aborted p.version s.member.phase)) .accepted).settle) ∧
      (p.state = .finished → exec c o = .next (recorded s .accepted).settle)) ∧
    (s.member.phase.running = true → s.proposalOf tag = none → ∀ i, s.readOf tag = some i →
      let e := s.readEntry i
      (e.state = .finished → exec c o = .next (recorded s .accepted).settle) ∧
      (e.state ≠ .finished →
        let t := s.setRead i { e with
          state := .finished, result := some .aborted, queryWindow := none, fetchWindow := none
          backOff := none, frames := [], request := none }
        let u := recorded ((State.withdrawAll { t with media := { t.media with
            clientRequests := t.media.clientRequests.filter (some ·.id ≠ e.request) } }
          e.frames).complete (.read tag .aborted (s.entryOf e.block).version s.member.phase
            Data.zero)) .accepted
        exec c o = .next u.settle ∧
        (u.readEntry i).state = .finished ∧ (u.readEntry i).result = some .aborted ∧
        u.client.outcome = .accepted ∧ u.client.tag = tag ∧
        u.client.completions = s.client.completions ++
          [.read tag .aborted (s.entryOf e.block).version s.member.phase Data.zero]))

/-- TAKE and EVENTS fix the record they return in the transaction in progress, or in one that they
open themselves (log 7), and hold it; TAKE_END and EVENTS_END of a transaction that clocked its last
byte remove it, TAKE's entry becoming FREE, and of a short one leave it; an empty marker changes
nothing. With no command byte recorded, the end is preceded by it (log 7). An event raised merges
into the first record of its kind and subject that no transaction holds, else joins the tail below
16 records, else is counted in EVENTS_DROPPED, or while that is held in the count kept apart. A held
record that was not removed takes in the record of its kind and subject that joined meanwhile. -/
def Obligations.TakeAndEventsRemoveTheirRecord : Prop :=
  (∀ s : State, s.PortReady →
    exec .take s = .next { s with client := { s.client with
      transaction := .opened s.leading (.completion s.client.completions.head?) } } ∧
    exec .events s = .next { s with client := { s.client with
      transaction := .opened s.leading (.event
        (if 0 < s.client.dropped.count then .dropped s.client.dropped ⟨0, none⟩
        else match s.client.events with
          | r :: _ => .ordinary r
          | [] => .marker)) } }) ∧
  (∀ (clocked : Nat) (leading : List Byte) (r : CompletionRecord) (s : State), s.awake = true →
    s.client.transaction = .opened leading (.completion (some r)) →
    (clocked < 3 + r.bytes.length → exec (.takeEnd clocked) s =
      .next { s with client := { s.client with transaction := .closed } }) ∧
    (3 + r.bytes.length ≤ clocked →
      ∃ t : State, exec (.takeEnd clocked) s = .next t ∧
        t.client = { s.client with transaction := .closed
                                   completions := s.client.completions.drop 1 } ∧
        (∀ tag result v phase, r = .write tag result v phase → t.reads = s.reads ∧
          ∀ i, t.proposal i =
            if (s.proposal i).state = .finished ∧ (s.proposal i).tag = tag then Proposal.empty
            else s.proposal i) ∧
        (∀ tag result v phase d, r = .read tag result v phase d → t.writes = s.writes ∧
          ∀ i, t.readEntry i =
            if (s.readEntry i).state = .finished ∧ (s.readEntry i).tag = tag then
              ReadEntry.empty
            else s.readEntry i) ∧
        t.store = s.store ∧ t.media = s.media ∧ t.line = s.line ∧ t.repair = s.repair ∧
        t.member = s.member)) ∧
  (∀ (clocked : Nat) (leading : List Byte) (s : State), s.awake = true →
    (∀ r, s.client.transaction = .opened leading (.event (.ordinary r)) →
      (9 ≤ clocked → exec (.eventsEnd clocked) s = .next { s with client := { s.client with
        transaction := .closed, events := s.client.events.drop 1 } }) ∧
      (clocked < 9 → exec (.eventsEnd clocked) s = .next { s with client := { s.client with
        transaction := .closed, events := mergeHeld s.client.events } })) ∧
    (∀ held waiting, s.client.transaction = .opened leading (.event (.dropped held waiting)) →
      (9 ≤ clocked → exec (.eventsEnd clocked) s = .next { s with client := { s.client with
        transaction := .closed, dropped := waiting } }) ∧
      (clocked < 9 → exec (.eventsEnd clocked) s = .next { s with client := { s.client with
        transaction := .closed
        dropped := ⟨min (held.count + waiting.count) 255, held.first⟩ } })) ∧
    (s.client.transaction = .opened leading (.completion none) →
      exec (.takeEnd clocked) s = .next s.atRise) ∧
    (s.client.transaction = .opened leading (.event .marker) →
      exec (.eventsEnd clocked) s = .next s.atRise) ∧
    (s.client.transaction = .closed ∨ s.client.transaction = .opened leading .silent → ∀ t,
      (exec .take s = .next t → exec (.takeEnd clocked) s = exec (.takeEnd clocked) t) ∧
      (exec .events s = .next t → exec (.eventsEnd clocked) s = exec (.eventsEnd clocked) t))) ∧
  (∀ (kind : EventKind) (subject : Subject) (detail : Detail) (c : ClientPort),
    let held := ∃ leading r, c.transaction = .opened leading (.event (.ordinary r))
    let alike := fun r : EventRecord => r.kind = kind ∧ r.subject = subject
    (∀ pre r post, c.events = pre ++ r :: post → alike r → (held → pre ≠ []) →
      (¬ held → ∀ x, x ∈ pre → ¬ alike x) → (held → ∀ x, x ∈ pre.drop 1 → ¬ alike x) →
      c.raise kind subject detail = { c with
        events := pre ++ { r with detail := detail, repeats := min (r.repeats + 1) 255 } :: post }) ∧
    ((¬ held → ∀ x, x ∈ c.events → ¬ alike x) → (held → ∀ x, x ∈ c.events.drop 1 → ¬ alike x) →
      (c.events.length < 16 → c.raise kind subject detail =
        { c with events := c.events ++ [⟨kind, subject, detail, 1⟩] }) ∧
      (16 ≤ c.events.length → ∀ before after : Dropped,
        (before.count = 0 → after = ⟨1, some kind⟩) →
        (before.count ≠ 0 → after = ⟨min (before.count + 1) 255, before.first⟩) →
        (∀ leading record, c.transaction = .opened leading (.event (.dropped record before)) →
          c.raise kind subject detail =
            { c with transaction := .opened leading (.event (.dropped record after)) }) ∧
        ((∀ leading record waiting,
            c.transaction ≠ .opened leading (.event (.dropped record waiting))) →
          c.dropped = before → c.raise kind subject detail = { c with dropped := after })))) ∧
  ∀ (r : EventRecord) (rest : List EventRecord),
    let alike := fun x : EventRecord => x.kind = r.kind ∧ x.subject = r.subject
    mergeHeld [] = [] ∧
    ((∀ x, x ∈ rest → ¬ alike x) → mergeHeld (r :: rest) = r :: rest) ∧
    ∀ pre x post, rest = pre ++ x :: post → alike x → (∀ y, y ∈ pre ++ post → ¬ alike y) →
      mergeHeld (r :: rest) =
        { r with detail := x.detail, repeats := min (r.repeats + x.repeats) 255 } :: (pre ++ post)

/-! ## Invariants -/

/-- The state after reset meets the invariants. -/
def Obligations.ResetMeetsTheInvariants : Prop :=
  State.reset.Inv ∧ State.reset.MapSound ∧ State.reset.ClockBound

/-- Every step keeps the queues and lists within their capacities, the out-queue in class order, a
frame waiting only at a full queue, the tables in their canonical form, the spare pool ascending, a
free port without a step, and one completion record for each FINISHED entry, the tags in use
distinct. -/
def Obligations.StepKeepsTheInvariant : Prop :=
  ∀ s t : State, s.Inv → step s = .next t → t.Inv

/-- Every step keeps the block map sound: what each condition fixes of its entry, and what the
staging queue, the port, the repair list and the scrub list hold for it. -/
def Obligations.StepKeepsTheMapSound : Prop :=
  ∀ s t : State, s.Inv → s.MapSound → step s = .next t → t.MapSound

/-- Every step keeps the version clock at least at the sequence of every version in the block map
and in the staging queue. -/
def Obligations.StepKeepsTheClockBound : Prop :=
  ∀ s t : State, s.MapSound → s.ClockBound → step s = .next t → t.ClockBound
end

