-- ==== Sys2Proof/Laws/State.lean ====
section
/-! SUPPORT. What each update of one unit leaves in each field of State: one lemma per field and
update, true by definition. -/

namespace Sys2Proof.Machine

variable (s : State)

@[simp] theorem State.onControl_control (f : ResetControl → ResetControl) : (s.onControl f).control = f s.control := rfl
@[simp] theorem State.onControl_member (f : ResetControl → ResetControl) : (s.onControl f).member = s.member := rfl
@[simp] theorem State.onControl_store (f : ResetControl → ResetControl) : (s.onControl f).store = s.store := rfl
@[simp] theorem State.onControl_media (f : ResetControl → ResetControl) : (s.onControl f).media = s.media := rfl
@[simp] theorem State.onControl_mount (f : ResetControl → ResetControl) : (s.onControl f).mount = s.mount := rfl
@[simp] theorem State.onControl_line (f : ResetControl → ResetControl) : (s.onControl f).line = s.line := rfl
@[simp] theorem State.onControl_writes (f : ResetControl → ResetControl) : (s.onControl f).writes = s.writes := rfl
@[simp] theorem State.onControl_reads (f : ResetControl → ResetControl) : (s.onControl f).reads = s.reads := rfl
@[simp] theorem State.onControl_repair (f : ResetControl → ResetControl) : (s.onControl f).repair = s.repair := rfl
@[simp] theorem State.onControl_client (f : ResetControl → ResetControl) : (s.onControl f).client = s.client := rfl
@[simp] theorem State.onControl_pending (f : ResetControl → ResetControl) : (s.onControl f).pending = s.pending := rfl

@[simp] theorem State.onMember_control (f : Membership → Membership) : (s.onMember f).control = s.control := rfl
@[simp] theorem State.onMember_member (f : Membership → Membership) : (s.onMember f).member = f s.member := rfl
@[simp] theorem State.onMember_store (f : Membership → Membership) : (s.onMember f).store = s.store := rfl
@[simp] theorem State.onMember_media (f : Membership → Membership) : (s.onMember f).media = s.media := rfl
@[simp] theorem State.onMember_mount (f : Membership → Membership) : (s.onMember f).mount = s.mount := rfl
@[simp] theorem State.onMember_line (f : Membership → Membership) : (s.onMember f).line = s.line := rfl
@[simp] theorem State.onMember_writes (f : Membership → Membership) : (s.onMember f).writes = s.writes := rfl
@[simp] theorem State.onMember_reads (f : Membership → Membership) : (s.onMember f).reads = s.reads := rfl
@[simp] theorem State.onMember_repair (f : Membership → Membership) : (s.onMember f).repair = s.repair := rfl
@[simp] theorem State.onMember_client (f : Membership → Membership) : (s.onMember f).client = s.client := rfl
@[simp] theorem State.onMember_pending (f : Membership → Membership) : (s.onMember f).pending = s.pending := rfl

@[simp] theorem State.onStore_control (f : StoreManager → StoreManager) : (s.onStore f).control = s.control := rfl
@[simp] theorem State.onStore_member (f : StoreManager → StoreManager) : (s.onStore f).member = s.member := rfl
@[simp] theorem State.onStore_store (f : StoreManager → StoreManager) : (s.onStore f).store = f s.store := rfl
@[simp] theorem State.onStore_media (f : StoreManager → StoreManager) : (s.onStore f).media = s.media := rfl
@[simp] theorem State.onStore_mount (f : StoreManager → StoreManager) : (s.onStore f).mount = s.mount := rfl
@[simp] theorem State.onStore_line (f : StoreManager → StoreManager) : (s.onStore f).line = s.line := rfl
@[simp] theorem State.onStore_writes (f : StoreManager → StoreManager) : (s.onStore f).writes = s.writes := rfl
@[simp] theorem State.onStore_reads (f : StoreManager → StoreManager) : (s.onStore f).reads = s.reads := rfl
@[simp] theorem State.onStore_repair (f : StoreManager → StoreManager) : (s.onStore f).repair = s.repair := rfl
@[simp] theorem State.onStore_client (f : StoreManager → StoreManager) : (s.onStore f).client = s.client := rfl
@[simp] theorem State.onStore_pending (f : StoreManager → StoreManager) : (s.onStore f).pending = s.pending := rfl

@[simp] theorem State.onMedia_control (f : MediaController → MediaController) : (s.onMedia f).control = s.control := rfl
@[simp] theorem State.onMedia_member (f : MediaController → MediaController) : (s.onMedia f).member = s.member := rfl
@[simp] theorem State.onMedia_store (f : MediaController → MediaController) : (s.onMedia f).store = s.store := rfl
@[simp] theorem State.onMedia_media (f : MediaController → MediaController) : (s.onMedia f).media = f s.media := rfl
@[simp] theorem State.onMedia_mount (f : MediaController → MediaController) : (s.onMedia f).mount = s.mount := rfl
@[simp] theorem State.onMedia_line (f : MediaController → MediaController) : (s.onMedia f).line = s.line := rfl
@[simp] theorem State.onMedia_writes (f : MediaController → MediaController) : (s.onMedia f).writes = s.writes := rfl
@[simp] theorem State.onMedia_reads (f : MediaController → MediaController) : (s.onMedia f).reads = s.reads := rfl
@[simp] theorem State.onMedia_repair (f : MediaController → MediaController) : (s.onMedia f).repair = s.repair := rfl
@[simp] theorem State.onMedia_client (f : MediaController → MediaController) : (s.onMedia f).client = s.client := rfl
@[simp] theorem State.onMedia_pending (f : MediaController → MediaController) : (s.onMedia f).pending = s.pending := rfl

@[simp] theorem State.onMount_control (f : MountSequencer → MountSequencer) : (s.onMount f).control = s.control := rfl
@[simp] theorem State.onMount_member (f : MountSequencer → MountSequencer) : (s.onMount f).member = s.member := rfl
@[simp] theorem State.onMount_store (f : MountSequencer → MountSequencer) : (s.onMount f).store = s.store := rfl
@[simp] theorem State.onMount_media (f : MountSequencer → MountSequencer) : (s.onMount f).media = s.media := rfl
@[simp] theorem State.onMount_mount (f : MountSequencer → MountSequencer) : (s.onMount f).mount = f s.mount := rfl
@[simp] theorem State.onMount_line (f : MountSequencer → MountSequencer) : (s.onMount f).line = s.line := rfl
@[simp] theorem State.onMount_writes (f : MountSequencer → MountSequencer) : (s.onMount f).writes = s.writes := rfl
@[simp] theorem State.onMount_reads (f : MountSequencer → MountSequencer) : (s.onMount f).reads = s.reads := rfl
@[simp] theorem State.onMount_repair (f : MountSequencer → MountSequencer) : (s.onMount f).repair = s.repair := rfl
@[simp] theorem State.onMount_client (f : MountSequencer → MountSequencer) : (s.onMount f).client = s.client := rfl
@[simp] theorem State.onMount_pending (f : MountSequencer → MountSequencer) : (s.onMount f).pending = s.pending := rfl

@[simp] theorem State.onLine_control (f : LineController → LineController) : (s.onLine f).control = s.control := rfl
@[simp] theorem State.onLine_member (f : LineController → LineController) : (s.onLine f).member = s.member := rfl
@[simp] theorem State.onLine_store (f : LineController → LineController) : (s.onLine f).store = s.store := rfl
@[simp] theorem State.onLine_media (f : LineController → LineController) : (s.onLine f).media = s.media := rfl
@[simp] theorem State.onLine_mount (f : LineController → LineController) : (s.onLine f).mount = s.mount := rfl
@[simp] theorem State.onLine_line (f : LineController → LineController) : (s.onLine f).line = f s.line := rfl
@[simp] theorem State.onLine_writes (f : LineController → LineController) : (s.onLine f).writes = s.writes := rfl
@[simp] theorem State.onLine_reads (f : LineController → LineController) : (s.onLine f).reads = s.reads := rfl
@[simp] theorem State.onLine_repair (f : LineController → LineController) : (s.onLine f).repair = s.repair := rfl
@[simp] theorem State.onLine_client (f : LineController → LineController) : (s.onLine f).client = s.client := rfl
@[simp] theorem State.onLine_pending (f : LineController → LineController) : (s.onLine f).pending = s.pending := rfl

@[simp] theorem State.onWrites_control (f : WriteCoordinator → WriteCoordinator) : (s.onWrites f).control = s.control := rfl
@[simp] theorem State.onWrites_member (f : WriteCoordinator → WriteCoordinator) : (s.onWrites f).member = s.member := rfl
@[simp] theorem State.onWrites_store (f : WriteCoordinator → WriteCoordinator) : (s.onWrites f).store = s.store := rfl
@[simp] theorem State.onWrites_media (f : WriteCoordinator → WriteCoordinator) : (s.onWrites f).media = s.media := rfl
@[simp] theorem State.onWrites_mount (f : WriteCoordinator → WriteCoordinator) : (s.onWrites f).mount = s.mount := rfl
@[simp] theorem State.onWrites_line (f : WriteCoordinator → WriteCoordinator) : (s.onWrites f).line = s.line := rfl
@[simp] theorem State.onWrites_writes (f : WriteCoordinator → WriteCoordinator) : (s.onWrites f).writes = f s.writes := rfl
@[simp] theorem State.onWrites_reads (f : WriteCoordinator → WriteCoordinator) : (s.onWrites f).reads = s.reads := rfl
@[simp] theorem State.onWrites_repair (f : WriteCoordinator → WriteCoordinator) : (s.onWrites f).repair = s.repair := rfl
@[simp] theorem State.onWrites_client (f : WriteCoordinator → WriteCoordinator) : (s.onWrites f).client = s.client := rfl
@[simp] theorem State.onWrites_pending (f : WriteCoordinator → WriteCoordinator) : (s.onWrites f).pending = s.pending := rfl

@[simp] theorem State.onReads_control (f : ReadCoordinator → ReadCoordinator) : (s.onReads f).control = s.control := rfl
@[simp] theorem State.onReads_member (f : ReadCoordinator → ReadCoordinator) : (s.onReads f).member = s.member := rfl
@[simp] theorem State.onReads_store (f : ReadCoordinator → ReadCoordinator) : (s.onReads f).store = s.store := rfl
@[simp] theorem State.onReads_media (f : ReadCoordinator → ReadCoordinator) : (s.onReads f).media = s.media := rfl
@[simp] theorem State.onReads_mount (f : ReadCoordinator → ReadCoordinator) : (s.onReads f).mount = s.mount := rfl
@[simp] theorem State.onReads_line (f : ReadCoordinator → ReadCoordinator) : (s.onReads f).line = s.line := rfl
@[simp] theorem State.onReads_writes (f : ReadCoordinator → ReadCoordinator) : (s.onReads f).writes = s.writes := rfl
@[simp] theorem State.onReads_reads (f : ReadCoordinator → ReadCoordinator) : (s.onReads f).reads = f s.reads := rfl
@[simp] theorem State.onReads_repair (f : ReadCoordinator → ReadCoordinator) : (s.onReads f).repair = s.repair := rfl
@[simp] theorem State.onReads_client (f : ReadCoordinator → ReadCoordinator) : (s.onReads f).client = s.client := rfl
@[simp] theorem State.onReads_pending (f : ReadCoordinator → ReadCoordinator) : (s.onReads f).pending = s.pending := rfl

@[simp] theorem State.onRepair_control (f : RepairEngine → RepairEngine) : (s.onRepair f).control = s.control := rfl
@[simp] theorem State.onRepair_member (f : RepairEngine → RepairEngine) : (s.onRepair f).member = s.member := rfl
@[simp] theorem State.onRepair_store (f : RepairEngine → RepairEngine) : (s.onRepair f).store = s.store := rfl
@[simp] theorem State.onRepair_media (f : RepairEngine → RepairEngine) : (s.onRepair f).media = s.media := rfl
@[simp] theorem State.onRepair_mount (f : RepairEngine → RepairEngine) : (s.onRepair f).mount = s.mount := rfl
@[simp] theorem State.onRepair_line (f : RepairEngine → RepairEngine) : (s.onRepair f).line = s.line := rfl
@[simp] theorem State.onRepair_writes (f : RepairEngine → RepairEngine) : (s.onRepair f).writes = s.writes := rfl
@[simp] theorem State.onRepair_reads (f : RepairEngine → RepairEngine) : (s.onRepair f).reads = s.reads := rfl
@[simp] theorem State.onRepair_repair (f : RepairEngine → RepairEngine) : (s.onRepair f).repair = f s.repair := rfl
@[simp] theorem State.onRepair_client (f : RepairEngine → RepairEngine) : (s.onRepair f).client = s.client := rfl
@[simp] theorem State.onRepair_pending (f : RepairEngine → RepairEngine) : (s.onRepair f).pending = s.pending := rfl

@[simp] theorem State.onClient_control (f : ClientPort → ClientPort) : (s.onClient f).control = s.control := rfl
@[simp] theorem State.onClient_member (f : ClientPort → ClientPort) : (s.onClient f).member = s.member := rfl
@[simp] theorem State.onClient_store (f : ClientPort → ClientPort) : (s.onClient f).store = s.store := rfl
@[simp] theorem State.onClient_media (f : ClientPort → ClientPort) : (s.onClient f).media = s.media := rfl
@[simp] theorem State.onClient_mount (f : ClientPort → ClientPort) : (s.onClient f).mount = s.mount := rfl
@[simp] theorem State.onClient_line (f : ClientPort → ClientPort) : (s.onClient f).line = s.line := rfl
@[simp] theorem State.onClient_writes (f : ClientPort → ClientPort) : (s.onClient f).writes = s.writes := rfl
@[simp] theorem State.onClient_reads (f : ClientPort → ClientPort) : (s.onClient f).reads = s.reads := rfl
@[simp] theorem State.onClient_repair (f : ClientPort → ClientPort) : (s.onClient f).repair = s.repair := rfl
@[simp] theorem State.onClient_client (f : ClientPort → ClientPort) : (s.onClient f).client = f s.client := rfl
@[simp] theorem State.onClient_pending (f : ClientPort → ClientPort) : (s.onClient f).pending = s.pending := rfl

variable (q : List Instr)

@[simp] theorem State.withPending_control : (s.withPending q).control = s.control := rfl
@[simp] theorem State.withPending_member : (s.withPending q).member = s.member := rfl
@[simp] theorem State.withPending_store : (s.withPending q).store = s.store := rfl
@[simp] theorem State.withPending_media : (s.withPending q).media = s.media := rfl
@[simp] theorem State.withPending_mount : (s.withPending q).mount = s.mount := rfl
@[simp] theorem State.withPending_line : (s.withPending q).line = s.line := rfl
@[simp] theorem State.withPending_writes : (s.withPending q).writes = s.writes := rfl
@[simp] theorem State.withPending_reads : (s.withPending q).reads = s.reads := rfl
@[simp] theorem State.withPending_repair : (s.withPending q).repair = s.repair := rfl
@[simp] theorem State.withPending_client : (s.withPending q).client = s.client := rfl
@[simp] theorem State.withPending_pending : (s.withPending q).pending = q := rfl

@[simp] theorem State.setPeer_control (n : StationNo) (e : PeerEntry) :
    (s.setPeer n e).control = s.control := rfl
@[simp] theorem State.setPeer_member (n : StationNo) (e : PeerEntry) :
    (s.setPeer n e).member = { s.member with peers := s.member.peers.set n e } := rfl
@[simp] theorem State.setPeer_store (n : StationNo) (e : PeerEntry) :
    (s.setPeer n e).store = s.store := rfl
@[simp] theorem State.setPeer_media (n : StationNo) (e : PeerEntry) :
    (s.setPeer n e).media = s.media := rfl
@[simp] theorem State.setPeer_mount (n : StationNo) (e : PeerEntry) :
    (s.setPeer n e).mount = s.mount := rfl
@[simp] theorem State.setPeer_line (n : StationNo) (e : PeerEntry) :
    (s.setPeer n e).line = s.line := rfl
@[simp] theorem State.setPeer_writes (n : StationNo) (e : PeerEntry) :
    (s.setPeer n e).writes = s.writes := rfl
@[simp] theorem State.setPeer_reads (n : StationNo) (e : PeerEntry) :
    (s.setPeer n e).reads = s.reads := rfl
@[simp] theorem State.setPeer_repair (n : StationNo) (e : PeerEntry) :
    (s.setPeer n e).repair = s.repair := rfl
@[simp] theorem State.setPeer_client (n : StationNo) (e : PeerEntry) :
    (s.setPeer n e).client = s.client := rfl
@[simp] theorem State.setPeer_pending (n : StationNo) (e : PeerEntry) :
    (s.setPeer n e).pending = s.pending := rfl

@[simp] theorem State.setEntry_control (b : Nat) (e : MapEntry) :
    (s.setEntry b e).control = s.control := rfl
@[simp] theorem State.setEntry_member (b : Nat) (e : MapEntry) :
    (s.setEntry b e).member = s.member := rfl
@[simp] theorem State.setEntry_store (b : Nat) (e : MapEntry) :
    (s.setEntry b e).store = { s.store with map := if e = .unwritten then eraseKey s.store.map b else putKey s.store.map b e } := rfl
@[simp] theorem State.setEntry_media (b : Nat) (e : MapEntry) :
    (s.setEntry b e).media = s.media := rfl
@[simp] theorem State.setEntry_mount (b : Nat) (e : MapEntry) :
    (s.setEntry b e).mount = s.mount := rfl
@[simp] theorem State.setEntry_line (b : Nat) (e : MapEntry) : (s.setEntry b e).line = s.line := rfl
@[simp] theorem State.setEntry_writes (b : Nat) (e : MapEntry) :
    (s.setEntry b e).writes = s.writes := rfl
@[simp] theorem State.setEntry_reads (b : Nat) (e : MapEntry) :
    (s.setEntry b e).reads = s.reads := rfl
@[simp] theorem State.setEntry_repair (b : Nat) (e : MapEntry) :
    (s.setEntry b e).repair = s.repair := rfl
@[simp] theorem State.setEntry_client (b : Nat) (e : MapEntry) :
    (s.setEntry b e).client = s.client := rfl
@[simp] theorem State.setEntry_pending (b : Nat) (e : MapEntry) :
    (s.setEntry b e).pending = s.pending := rfl

/-! ## The steps at the media port -/

@[simp] theorem MediaStep.programmed_read (l : List (Nat × SectorContent)) (n : Nat) :
    MediaStep.programmed l (.read n) = l := rfl
@[simp] theorem MediaStep.programmed_program (l : List (Nat × SectorContent)) (n : Nat)
    (c : SectorContent) : MediaStep.programmed l (.program n c) = putKey l n c := rfl
@[simp] theorem MediaStep.programmed_mark (l : List (Nat × SectorContent)) (n : Nat) :
    MediaStep.programmed l (.mark n) = putKey l n (.mark n) := rfl

@[simp] theorem MediaController.run_port (m : MediaController) (l : List MediaStep) :
    (m.run l).port = m.port := by cases l <;> rfl
@[simp] theorem MediaController.run_clientRequests (m : MediaController) (l : List MediaStep) :
    (m.run l).clientRequests = m.clientRequests := by cases l <;> rfl
@[simp] theorem MediaController.run_engineRequests (m : MediaController) (l : List MediaStep) :
    (m.run l).engineRequests = m.engineRequests := by cases l <;> rfl
@[simp] theorem MediaController.run_passedOver (m : MediaController) (l : List MediaStep) :
    (m.run l).passedOver = m.passedOver := by cases l <;> rfl
@[simp] theorem MediaController.run_spares (m : MediaController) (l : List MediaStep) :
    (m.run l).spares = m.spares := by cases l <;> rfl
@[simp] theorem MediaController.run_retired (m : MediaController) (l : List MediaStep) :
    (m.run l).retired = m.retired := by cases l <;> rfl
@[simp] theorem MediaController.run_sparesExhausted (m : MediaController) (l : List MediaStep) :
    (m.run l).sparesExhausted = m.sparesExhausted := by cases l <;> rfl
@[simp] theorem MediaController.run_scrub (m : MediaController) (l : List MediaStep) :
    (m.run l).scrub = m.scrub := by cases l <;> rfl
@[simp] theorem MediaController.run_steps (m : MediaController) (l : List MediaStep) :
    (m.run l).steps = l := by cases l <;> rfl
/-- A step limit runs exactly while a step is in progress. -/
@[simp] theorem MediaController.run_stepWindow (m : MediaController) (l : List MediaStep) :
    (m.run l).stepWindow = if l = [] then none else some Config.stepLimit := by cases l <;> rfl

@[simp] theorem State.usePort_control (op : MediaOp) (l : List MediaStep) :
    (s.usePort op l).control = s.control := rfl
@[simp] theorem State.usePort_member (op : MediaOp) (l : List MediaStep) :
    (s.usePort op l).member = s.member := rfl
@[simp] theorem State.usePort_store (op : MediaOp) (l : List MediaStep) :
    (s.usePort op l).store = s.store := rfl
@[simp] theorem State.usePort_mount (op : MediaOp) (l : List MediaStep) :
    (s.usePort op l).mount = s.mount := rfl
@[simp] theorem State.usePort_line (op : MediaOp) (l : List MediaStep) :
    (s.usePort op l).line = s.line := rfl
@[simp] theorem State.usePort_writes (op : MediaOp) (l : List MediaStep) :
    (s.usePort op l).writes = s.writes := rfl
@[simp] theorem State.usePort_reads (op : MediaOp) (l : List MediaStep) :
    (s.usePort op l).reads = s.reads := rfl
@[simp] theorem State.usePort_repair (op : MediaOp) (l : List MediaStep) :
    (s.usePort op l).repair = s.repair := rfl
@[simp] theorem State.usePort_client (op : MediaOp) (l : List MediaStep) :
    (s.usePort op l).client = s.client := rfl
@[simp] theorem State.usePort_pending (op : MediaOp) (l : List MediaStep) :
    (s.usePort op l).pending = s.pending := rfl
theorem State.usePort_media (op : MediaOp) (l : List MediaStep) :
    (s.usePort op l).media = MediaController.run { s.media with port := some op } l := rfl
@[simp] theorem State.usePort_media_nil (op : MediaOp) :
    (s.usePort op []).media =
      { s.media with port := some op, steps := [], stepWindow := none } := rfl
@[simp] theorem State.usePort_media_cons (op : MediaOp) (x : MediaStep) (l : List MediaStep) :
    (s.usePort op (x :: l)).media =
      { s.media with port := some op, steps := x :: l, stepWindow := some Config.stepLimit,
                     sectors := x.programmed s.media.sectors } := rfl

@[simp] theorem State.freePort_control : s.freePort.control = s.control := rfl
@[simp] theorem State.freePort_member : s.freePort.member = s.member := rfl
@[simp] theorem State.freePort_store : s.freePort.store = s.store := rfl
@[simp] theorem State.freePort_media :
    s.freePort.media = { s.media with port := none, steps := [], stepWindow := none } := rfl
@[simp] theorem State.freePort_mount : s.freePort.mount = s.mount := rfl
@[simp] theorem State.freePort_line : s.freePort.line = s.line := rfl
@[simp] theorem State.freePort_writes : s.freePort.writes = s.writes := rfl
@[simp] theorem State.freePort_reads : s.freePort.reads = s.reads := rfl
@[simp] theorem State.freePort_repair : s.freePort.repair = s.repair := rfl
@[simp] theorem State.freePort_client : s.freePort.client = s.client := rfl
@[simp] theorem State.freePort_pending : s.freePort.pending = s.pending := rfl

@[simp] theorem State.retire_control (n : Nat) : (s.retire n).control = s.control := rfl
@[simp] theorem State.retire_member (n : Nat) : (s.retire n).member = s.member := rfl
@[simp] theorem State.retire_store (n : Nat) : (s.retire n).store = s.store := rfl
@[simp] theorem State.retire_media (n : Nat) :
    (s.retire n).media = { s.media with retired := addSorted s.media.retired n } := rfl
@[simp] theorem State.retire_mount (n : Nat) : (s.retire n).mount = s.mount := rfl
@[simp] theorem State.retire_line (n : Nat) : (s.retire n).line = s.line := rfl
@[simp] theorem State.retire_writes (n : Nat) : (s.retire n).writes = s.writes := rfl
@[simp] theorem State.retire_reads (n : Nat) : (s.retire n).reads = s.reads := rfl
@[simp] theorem State.retire_repair (n : Nat) : (s.retire n).repair = s.repair := rfl
@[simp] theorem State.retire_client (n : Nat) : (s.retire n).client = s.client := rfl
@[simp] theorem State.retire_pending (n : Nat) : (s.retire n).pending = s.pending := rfl

@[simp] theorem State.bumpId_control : s.bumpId.control = s.control := rfl
@[simp] theorem State.bumpId_member : s.bumpId.member = s.member := rfl
@[simp] theorem State.bumpId_store : s.bumpId.store = s.store := rfl
@[simp] theorem State.bumpId_media : s.bumpId.media = s.media := rfl
@[simp] theorem State.bumpId_mount : s.bumpId.mount = s.mount := rfl
@[simp] theorem State.bumpId_line :
    s.bumpId.line = { s.line with nextId := s.line.nextId + 1 } := rfl
@[simp] theorem State.bumpId_writes : s.bumpId.writes = s.writes := rfl
@[simp] theorem State.bumpId_reads : s.bumpId.reads = s.reads := rfl
@[simp] theorem State.bumpId_repair : s.bumpId.repair = s.repair := rfl
@[simp] theorem State.bumpId_client : s.bumpId.client = s.client := rfl
@[simp] theorem State.bumpId_pending : s.bumpId.pending = s.pending := rfl

@[simp] theorem State.learn_control (v : BitVec 32) : (s.learn v).control = s.control := rfl
@[simp] theorem State.learn_member (v : BitVec 32) : (s.learn v).member = s.member := rfl
@[simp] theorem State.learn_store (v : BitVec 32) :
    (s.learn v).store = { s.store with clock := if s.store.clock < v then v else s.store.clock } := rfl
@[simp] theorem State.learn_media (v : BitVec 32) : (s.learn v).media = s.media := rfl
@[simp] theorem State.learn_mount (v : BitVec 32) : (s.learn v).mount = s.mount := rfl
@[simp] theorem State.learn_line (v : BitVec 32) : (s.learn v).line = s.line := rfl
@[simp] theorem State.learn_writes (v : BitVec 32) : (s.learn v).writes = s.writes := rfl
@[simp] theorem State.learn_reads (v : BitVec 32) : (s.learn v).reads = s.reads := rfl
@[simp] theorem State.learn_repair (v : BitVec 32) : (s.learn v).repair = s.repair := rfl
@[simp] theorem State.learn_client (v : BitVec 32) : (s.learn v).client = s.client := rfl
@[simp] theorem State.learn_pending (v : BitVec 32) : (s.learn v).pending = s.pending := rfl

@[simp] theorem State.raise_control (k : EventKind) (b : Subject) (d : Detail) :
    (s.raise k b d).control = s.control := rfl
@[simp] theorem State.raise_member (k : EventKind) (b : Subject) (d : Detail) :
    (s.raise k b d).member = s.member := rfl
@[simp] theorem State.raise_store (k : EventKind) (b : Subject) (d : Detail) :
    (s.raise k b d).store = s.store := rfl
@[simp] theorem State.raise_media (k : EventKind) (b : Subject) (d : Detail) :
    (s.raise k b d).media = s.media := rfl
@[simp] theorem State.raise_mount (k : EventKind) (b : Subject) (d : Detail) :
    (s.raise k b d).mount = s.mount := rfl
@[simp] theorem State.raise_line (k : EventKind) (b : Subject) (d : Detail) :
    (s.raise k b d).line = s.line := rfl
@[simp] theorem State.raise_writes (k : EventKind) (b : Subject) (d : Detail) :
    (s.raise k b d).writes = s.writes := rfl
@[simp] theorem State.raise_reads (k : EventKind) (b : Subject) (d : Detail) :
    (s.raise k b d).reads = s.reads := rfl
@[simp] theorem State.raise_repair (k : EventKind) (b : Subject) (d : Detail) :
    (s.raise k b d).repair = s.repair := rfl
@[simp] theorem State.raise_client (k : EventKind) (b : Subject) (d : Detail) :
    (s.raise k b d).client = s.client.raise k b d := rfl
@[simp] theorem State.raise_pending (k : EventKind) (b : Subject) (d : Detail) :
    (s.raise k b d).pending = s.pending := rfl

@[simp] theorem State.setProposal_control (i : Fin 8) (p : Proposal) :
    (s.setProposal i p).control = s.control := rfl
@[simp] theorem State.setProposal_member (i : Fin 8) (p : Proposal) :
    (s.setProposal i p).member = s.member := rfl
@[simp] theorem State.setProposal_store (i : Fin 8) (p : Proposal) :
    (s.setProposal i p).store = s.store := rfl
@[simp] theorem State.setProposal_media (i : Fin 8) (p : Proposal) :
    (s.setProposal i p).media = s.media := rfl
@[simp] theorem State.setProposal_mount (i : Fin 8) (p : Proposal) :
    (s.setProposal i p).mount = s.mount := rfl
@[simp] theorem State.setProposal_line (i : Fin 8) (p : Proposal) :
    (s.setProposal i p).line = s.line := rfl
@[simp] theorem State.setProposal_writes (i : Fin 8) (p : Proposal) :
    (s.setProposal i p).writes = ⟨s.writes.proposals.set i p⟩ := rfl
@[simp] theorem State.setProposal_reads (i : Fin 8) (p : Proposal) :
    (s.setProposal i p).reads = s.reads := rfl
@[simp] theorem State.setProposal_repair (i : Fin 8) (p : Proposal) :
    (s.setProposal i p).repair = s.repair := rfl
@[simp] theorem State.setProposal_client (i : Fin 8) (p : Proposal) :
    (s.setProposal i p).client = s.client := rfl
@[simp] theorem State.setProposal_pending (i : Fin 8) (p : Proposal) :
    (s.setProposal i p).pending = s.pending := rfl

@[simp] theorem State.setRead_control (i : Fin 4) (e : ReadEntry) :
    (s.setRead i e).control = s.control := rfl
@[simp] theorem State.setRead_member (i : Fin 4) (e : ReadEntry) :
    (s.setRead i e).member = s.member := rfl
@[simp] theorem State.setRead_store (i : Fin 4) (e : ReadEntry) :
    (s.setRead i e).store = s.store := rfl
@[simp] theorem State.setRead_media (i : Fin 4) (e : ReadEntry) :
    (s.setRead i e).media = s.media := rfl
@[simp] theorem State.setRead_mount (i : Fin 4) (e : ReadEntry) :
    (s.setRead i e).mount = s.mount := rfl
@[simp] theorem State.setRead_line (i : Fin 4) (e : ReadEntry) :
    (s.setRead i e).line = s.line := rfl
@[simp] theorem State.setRead_writes (i : Fin 4) (e : ReadEntry) :
    (s.setRead i e).writes = s.writes := rfl
@[simp] theorem State.setRead_reads (i : Fin 4) (e : ReadEntry) :
    (s.setRead i e).reads = ⟨s.reads.entries.set i e⟩ := rfl
@[simp] theorem State.setRead_repair (i : Fin 4) (e : ReadEntry) :
    (s.setRead i e).repair = s.repair := rfl
@[simp] theorem State.setRead_client (i : Fin 4) (e : ReadEntry) :
    (s.setRead i e).client = s.client := rfl
@[simp] theorem State.setRead_pending (i : Fin 4) (e : ReadEntry) :
    (s.setRead i e).pending = s.pending := rfl

@[simp] theorem State.setServe_control (job : Option ServeJob) :
    (s.setServe job).control = s.control := rfl
@[simp] theorem State.setServe_member (job : Option ServeJob) :
    (s.setServe job).member = s.member := rfl
@[simp] theorem State.setServe_store (job : Option ServeJob) :
    (s.setServe job).store = s.store := rfl
@[simp] theorem State.setServe_media (job : Option ServeJob) :
    (s.setServe job).media = s.media := rfl
@[simp] theorem State.setServe_mount (job : Option ServeJob) :
    (s.setServe job).mount = s.mount := rfl
@[simp] theorem State.setServe_line (job : Option ServeJob) : (s.setServe job).line = s.line := rfl
@[simp] theorem State.setServe_writes (job : Option ServeJob) :
    (s.setServe job).writes = s.writes := rfl
@[simp] theorem State.setServe_reads (job : Option ServeJob) :
    (s.setServe job).reads = s.reads := rfl
@[simp] theorem State.setServe_repair (job : Option ServeJob) :
    (s.setServe job).repair = { s.repair with serve := job } := rfl
@[simp] theorem State.setServe_client (job : Option ServeJob) :
    (s.setServe job).client = s.client := rfl
@[simp] theorem State.setServe_pending (job : Option ServeJob) :
    (s.setServe job).pending = s.pending := rfl

@[simp] theorem State.onFetch_control (f : FetchSlot → FetchSlot) :
    (s.onFetch f).control = s.control := rfl
@[simp] theorem State.onFetch_member (f : FetchSlot → FetchSlot) :
    (s.onFetch f).member = s.member := rfl
@[simp] theorem State.onFetch_store (f : FetchSlot → FetchSlot) :
    (s.onFetch f).store = s.store := rfl
@[simp] theorem State.onFetch_media (f : FetchSlot → FetchSlot) :
    (s.onFetch f).media = s.media := rfl
@[simp] theorem State.onFetch_mount (f : FetchSlot → FetchSlot) :
    (s.onFetch f).mount = s.mount := rfl
@[simp] theorem State.onFetch_line (f : FetchSlot → FetchSlot) : (s.onFetch f).line = s.line := rfl
@[simp] theorem State.onFetch_writes (f : FetchSlot → FetchSlot) :
    (s.onFetch f).writes = s.writes := rfl
@[simp] theorem State.onFetch_reads (f : FetchSlot → FetchSlot) :
    (s.onFetch f).reads = s.reads := rfl
@[simp] theorem State.onFetch_repair (f : FetchSlot → FetchSlot) :
    (s.onFetch f).repair = { s.repair with fetch := f s.repair.fetch } := rfl
@[simp] theorem State.onFetch_client (f : FetchSlot → FetchSlot) :
    (s.onFetch f).client = s.client := rfl
@[simp] theorem State.onFetch_pending (f : FetchSlot → FetchSlot) :
    (s.onFetch f).pending = s.pending := rfl

@[simp] theorem State.onCursor_control (f : Cursor → Cursor) :
    (s.onCursor f).control = s.control := rfl
@[simp] theorem State.onCursor_member (f : Cursor → Cursor) :
    (s.onCursor f).member = s.member := rfl
@[simp] theorem State.onCursor_store (f : Cursor → Cursor) : (s.onCursor f).store = s.store := rfl
@[simp] theorem State.onCursor_media (f : Cursor → Cursor) : (s.onCursor f).media = s.media := rfl
@[simp] theorem State.onCursor_mount (f : Cursor → Cursor) : (s.onCursor f).mount = s.mount := rfl
@[simp] theorem State.onCursor_line (f : Cursor → Cursor) : (s.onCursor f).line = s.line := rfl
@[simp] theorem State.onCursor_writes (f : Cursor → Cursor) :
    (s.onCursor f).writes = s.writes := rfl
@[simp] theorem State.onCursor_reads (f : Cursor → Cursor) : (s.onCursor f).reads = s.reads := rfl
@[simp] theorem State.onCursor_repair (f : Cursor → Cursor) :
    (s.onCursor f).repair = { s.repair with cursor := f s.repair.cursor } := rfl
@[simp] theorem State.onCursor_client (f : Cursor → Cursor) :
    (s.onCursor f).client = s.client := rfl
@[simp] theorem State.onCursor_pending (f : Cursor → Cursor) :
    (s.onCursor f).pending = s.pending := rfl

@[simp] theorem State.complete_control (r : CompletionRecord) :
    (s.complete r).control = s.control := rfl
@[simp] theorem State.complete_member (r : CompletionRecord) :
    (s.complete r).member = s.member := rfl
@[simp] theorem State.complete_store (r : CompletionRecord) : (s.complete r).store = s.store := rfl
@[simp] theorem State.complete_media (r : CompletionRecord) : (s.complete r).media = s.media := rfl
@[simp] theorem State.complete_mount (r : CompletionRecord) : (s.complete r).mount = s.mount := rfl
@[simp] theorem State.complete_line (r : CompletionRecord) : (s.complete r).line = s.line := rfl
@[simp] theorem State.complete_writes (r : CompletionRecord) :
    (s.complete r).writes = s.writes := rfl
@[simp] theorem State.complete_reads (r : CompletionRecord) : (s.complete r).reads = s.reads := rfl
@[simp] theorem State.complete_repair (r : CompletionRecord) :
    (s.complete r).repair = s.repair := rfl
@[simp] theorem State.complete_client (r : CompletionRecord) :
    (s.complete r).client = { s.client with completions := s.client.completions ++ [r] } := rfl
@[simp] theorem State.complete_pending (r : CompletionRecord) :
    (s.complete r).pending = s.pending := rfl

end Sys2Proof.Machine
end

