-- ==== Sys2Proof/Laws/Frames.lean ====
section
/-! SUPPORT. What each shared operation leaves as it was: one lemma per operation, which says every
unit and field that the operation never changes. -/

namespace Sys2Proof.Machine

/-- A fold keeps what each of its steps keeps. -/
theorem foldl_keeps {σ β α : Type} (g : σ → α) (f : σ → β → σ) (h : ∀ s b, g (f s b) = g s)
    (l : List β) (s : σ) : g (l.foldl f s) = g s := by
  induction l generalizing s with
  | nil => rfl
  | cons b l ih => rw [List.foldl_cons, ih, h]

/-- An event leaves the last outcome, its tag and the completion queue as they were. -/
@[simp] theorem ClientPort.raise_keeps (c : ClientPort) (k : EventKind) (b : Subject) (d : Detail) :
    (c.raise k b d).outcome = c.outcome ∧ (c.raise k b d).tag = c.tag ∧
      (c.raise k b d).completions = c.completions := by
  unfold ClientPort.raise ClientPort.dropEvent
  dsimp only
  refine ⟨?_, ?_, ?_⟩ <;> (repeat' split) <;> rfl

variable (s : State)

@[simp] theorem State.join_keeps (id : Nat) (f : Frame) :
    (s.join id f).control = s.control ∧ (s.join id f).member = s.member ∧
    (s.join id f).store = s.store ∧ (s.join id f).media = s.media ∧ (s.join id f).mount = s.mount ∧
    (s.join id f).line.discards = s.line.discards ∧
    (s.join id f).line.ignoring = s.line.ignoring ∧
    (s.join id f).line.replacement = s.line.replacement ∧ (s.join id f).writes = s.writes ∧
    (s.join id f).reads = s.reads ∧ (s.join id f).repair.list = s.repair.list ∧
    (s.join id f).client = s.client ∧ (s.join id f).pending = s.pending := by
  unfold State.join
  simp

@[simp] theorem State.place_keeps (id : Nat) (f : Frame) :
    (s.place id f).control = s.control ∧ (s.place id f).member = s.member ∧
    (s.place id f).store = s.store ∧ (s.place id f).media = s.media ∧
    (s.place id f).mount = s.mount ∧ (s.place id f).line.discards = s.line.discards ∧
    (s.place id f).line.ignoring = s.line.ignoring ∧
    (s.place id f).line.replacement = s.line.replacement ∧ (s.place id f).writes = s.writes ∧
    (s.place id f).reads = s.reads ∧ (s.place id f).repair.list = s.repair.list ∧
    (s.place id f).client = s.client ∧ (s.place id f).pending = s.pending := by
  unfold State.place
  (repeat' split) <;> simp

@[simp] theorem State.send_keeps (n : Option StationNo) (b : Body) :
    (s.send n b).control = s.control ∧ (s.send n b).member = s.member ∧
    (s.send n b).store = s.store ∧ (s.send n b).media = s.media ∧ (s.send n b).mount = s.mount ∧
    (s.send n b).line.discards = s.line.discards ∧
    (s.send n b).line.ignoring = s.line.ignoring ∧
    (s.send n b).line.replacement = s.line.replacement ∧ (s.send n b).writes = s.writes ∧
    (s.send n b).reads = s.reads ∧ (s.send n b).repair.list = s.repair.list ∧
    (s.send n b).client = s.client ∧ (s.send n b).pending = s.pending := by
  unfold State.send
  simp

@[simp] theorem State.handOut_keeps :
    s.handOut.control = s.control ∧ s.handOut.member = s.member ∧ s.handOut.store = s.store ∧
    s.handOut.media = s.media ∧ s.handOut.mount = s.mount ∧
    s.handOut.line.discards = s.line.discards ∧
    s.handOut.line.ignoring = s.line.ignoring ∧ s.handOut.line.replacement = s.line.replacement ∧
    s.handOut.writes = s.writes ∧ s.handOut.reads = s.reads ∧
    s.handOut.repair.list = s.repair.list ∧ s.handOut.client = s.client ∧
    s.handOut.pending = s.pending := by
  unfold State.handOut
  (repeat' split) <;> simp

@[simp] theorem State.leaveQueue_keeps (id : Nat) :
    (s.leaveQueue id).control = s.control ∧ (s.leaveQueue id).member = s.member ∧
    (s.leaveQueue id).store = s.store ∧ (s.leaveQueue id).media = s.media ∧
    (s.leaveQueue id).mount = s.mount ∧ (s.leaveQueue id).line.discards = s.line.discards ∧
    (s.leaveQueue id).line.ignoring = s.line.ignoring ∧
    (s.leaveQueue id).line.replacement = s.line.replacement ∧ (s.leaveQueue id).writes = s.writes ∧
    (s.leaveQueue id).reads = s.reads ∧ (s.leaveQueue id).repair.list = s.repair.list ∧
    (s.leaveQueue id).client = s.client ∧ (s.leaveQueue id).pending = s.pending := by
  unfold State.leaveQueue
  simp

@[simp] theorem State.withdraw_keeps (id : Nat) :
    (s.withdraw id).control = s.control ∧ (s.withdraw id).member = s.member ∧
    (s.withdraw id).store = s.store ∧ (s.withdraw id).media = s.media ∧
    (s.withdraw id).mount = s.mount ∧ (s.withdraw id).line.discards = s.line.discards ∧
    (s.withdraw id).line.ignoring = s.line.ignoring ∧
    (s.withdraw id).line.replacement = s.line.replacement ∧ (s.withdraw id).writes = s.writes ∧
    (s.withdraw id).reads = s.reads ∧ (s.withdraw id).repair.list = s.repair.list ∧
    (s.withdraw id).client = s.client ∧ (s.withdraw id).pending = s.pending := by
  unfold State.withdraw
  (repeat' split) <;> simp

@[simp] theorem State.withdrawAll_keeps (ids : List Nat) :
    (s.withdrawAll ids).control = s.control ∧ (s.withdrawAll ids).member = s.member ∧
    (s.withdrawAll ids).store = s.store ∧ (s.withdrawAll ids).media = s.media ∧
    (s.withdrawAll ids).mount = s.mount ∧ (s.withdrawAll ids).line.discards = s.line.discards ∧
    (s.withdrawAll ids).line.ignoring = s.line.ignoring ∧
    (s.withdrawAll ids).line.replacement = s.line.replacement ∧
    (s.withdrawAll ids).writes = s.writes ∧ (s.withdrawAll ids).reads = s.reads ∧
    (s.withdrawAll ids).repair.list = s.repair.list ∧ (s.withdrawAll ids).client = s.client ∧
    (s.withdrawAll ids).pending = s.pending := by
  have h := foldl_keeps (fun s : State =>
    (s.control, s.member, s.store, s.media, s.mount, s.line.discards, s.line.ignoring, s.line.replacement,
    s.writes, s.reads, s.repair.list, s.client, s.pending)) State.withdraw (fun s i => by simp)
    ids (s.onLine fun l => { l with waiting := l.waiting.filter (!ids.contains ·.id) })
  simp only [Prod.mk.injEq] at h
  simpa [State.withdrawAll] using h

@[simp] theorem State.placeHeartbeat_keeps (f : Frame) :
    (s.placeHeartbeat f).control = s.control ∧ (s.placeHeartbeat f).member = s.member ∧
    (s.placeHeartbeat f).store = s.store ∧ (s.placeHeartbeat f).media = s.media ∧
    (s.placeHeartbeat f).mount = s.mount ∧ (s.placeHeartbeat f).line.discards = s.line.discards ∧
    (s.placeHeartbeat f).line.ignoring = s.line.ignoring ∧
    (s.placeHeartbeat f).writes = s.writes ∧ (s.placeHeartbeat f).reads = s.reads ∧
    (s.placeHeartbeat f).repair.list = s.repair.list ∧ (s.placeHeartbeat f).client = s.client ∧
    (s.placeHeartbeat f).pending = s.pending := by
  unfold State.placeHeartbeat
  (repeat' split) <;> simp

@[simp] theorem State.finishProposal_keeps (i : Fin 8) (r : Result) (w : Option Version) :
    (s.finishProposal i r w).control = s.control ∧ (s.finishProposal i r w).member = s.member ∧
    (s.finishProposal i r w).store = s.store ∧ (s.finishProposal i r w).media = s.media ∧
    (s.finishProposal i r w).mount = s.mount ∧
    (s.finishProposal i r w).line.discards = s.line.discards ∧
    (s.finishProposal i r w).line.ignoring = s.line.ignoring ∧
    (s.finishProposal i r w).line.replacement = s.line.replacement ∧
    (s.finishProposal i r w).reads = s.reads ∧
    (s.finishProposal i r w).repair.list = s.repair.list ∧
    (s.finishProposal i r w).client.outcome = s.client.outcome ∧
    (s.finishProposal i r w).client.tag = s.client.tag ∧
    (s.finishProposal i r w).client.transaction = s.client.transaction ∧
    (s.finishProposal i r w).client.events = s.client.events ∧
    (s.finishProposal i r w).client.dropped = s.client.dropped ∧
    (s.finishProposal i r w).pending = s.pending := by
  unfold State.finishProposal
  dsimp only
  (repeat' split) <;> simp

@[simp] theorem State.dropClientRequest_keeps (r : Option Nat) :
    (s.dropClientRequest r).control = s.control ∧ (s.dropClientRequest r).member = s.member ∧
    (s.dropClientRequest r).store = s.store ∧ (s.dropClientRequest r).media.port = s.media.port ∧
    (s.dropClientRequest r).media.retired = s.media.retired ∧
    (s.dropClientRequest r).media.sectors = s.media.sectors ∧
    (s.dropClientRequest r).media.spares = s.media.spares ∧
    (s.dropClientRequest r).mount = s.mount ∧ (s.dropClientRequest r).line = s.line ∧
    (s.dropClientRequest r).writes = s.writes ∧ (s.dropClientRequest r).reads = s.reads ∧
    (s.dropClientRequest r).repair = s.repair ∧ (s.dropClientRequest r).client = s.client ∧
    (s.dropClientRequest r).pending = s.pending := by
  unfold State.dropClientRequest
  simp

@[simp] theorem State.finishRead_keeps (i : Fin 4) (r : Result) (v : Version) (d : Data) :
    (s.finishRead i r v d).control = s.control ∧ (s.finishRead i r v d).member = s.member ∧
    (s.finishRead i r v d).store = s.store ∧ (s.finishRead i r v d).media.port = s.media.port ∧
    (s.finishRead i r v d).media.retired = s.media.retired ∧
    (s.finishRead i r v d).media.sectors = s.media.sectors ∧
    (s.finishRead i r v d).media.spares = s.media.spares ∧ (s.finishRead i r v d).mount = s.mount ∧
    (s.finishRead i r v d).line.discards = s.line.discards ∧
    (s.finishRead i r v d).line.ignoring = s.line.ignoring ∧
    (s.finishRead i r v d).line.replacement = s.line.replacement ∧
    (s.finishRead i r v d).writes = s.writes ∧ (s.finishRead i r v d).repair.list = s.repair.list ∧
    (s.finishRead i r v d).client.outcome = s.client.outcome ∧
    (s.finishRead i r v d).client.tag = s.client.tag ∧
    (s.finishRead i r v d).client.transaction = s.client.transaction ∧
    (s.finishRead i r v d).client.events = s.client.events ∧
    (s.finishRead i r v d).client.dropped = s.client.dropped ∧
    (s.finishRead i r v d).pending = s.pending := by
  unfold State.finishRead
  dsimp only
  (repeat' split) <;> simp

@[simp] theorem State.finishFromMap_keeps (i : Fin 4) :
    (s.finishFromMap i).control = s.control ∧ (s.finishFromMap i).member = s.member ∧
    (s.finishFromMap i).store = s.store ∧ (s.finishFromMap i).media.port = s.media.port ∧
    (s.finishFromMap i).media.retired = s.media.retired ∧
    (s.finishFromMap i).media.sectors = s.media.sectors ∧
    (s.finishFromMap i).media.spares = s.media.spares ∧ (s.finishFromMap i).mount = s.mount ∧
    (s.finishFromMap i).line.discards = s.line.discards ∧
    (s.finishFromMap i).line.ignoring = s.line.ignoring ∧
    (s.finishFromMap i).line.replacement = s.line.replacement ∧
    (s.finishFromMap i).writes = s.writes ∧ (s.finishFromMap i).repair.list = s.repair.list ∧
    (s.finishFromMap i).client.outcome = s.client.outcome ∧
    (s.finishFromMap i).client.tag = s.client.tag ∧
    (s.finishFromMap i).client.transaction = s.client.transaction ∧
    (s.finishFromMap i).client.events = s.client.events ∧
    (s.finishFromMap i).client.dropped = s.client.dropped ∧
    (s.finishFromMap i).pending = s.pending := by
  unfold State.finishFromMap
  dsimp only
  (repeat' split) <;> simp

@[simp] theorem State.requestRead_keeps (i : Fin 4) :
    (s.requestRead i).control = s.control ∧ (s.requestRead i).member = s.member ∧
    (s.requestRead i).store = s.store ∧ (s.requestRead i).media.port = s.media.port ∧
    (s.requestRead i).media.retired = s.media.retired ∧
    (s.requestRead i).media.sectors = s.media.sectors ∧
    (s.requestRead i).media.spares = s.media.spares ∧ (s.requestRead i).mount = s.mount ∧
    (s.requestRead i).line.discards = s.line.discards ∧
    (s.requestRead i).line.ignoring = s.line.ignoring ∧
    (s.requestRead i).line.replacement = s.line.replacement ∧ (s.requestRead i).writes = s.writes ∧
    (s.requestRead i).repair = s.repair ∧ (s.requestRead i).client = s.client ∧
    (s.requestRead i).pending = s.pending := by
  unfold State.requestRead
  dsimp only
  simp

@[simp] theorem State.beginLocal_keeps (i : Fin 4) :
    (s.beginLocal i).control = s.control ∧ (s.beginLocal i).member = s.member ∧
    (s.beginLocal i).store = s.store ∧ (s.beginLocal i).media.port = s.media.port ∧
    (s.beginLocal i).media.retired = s.media.retired ∧
    (s.beginLocal i).media.sectors = s.media.sectors ∧
    (s.beginLocal i).media.spares = s.media.spares ∧ (s.beginLocal i).mount = s.mount ∧
    (s.beginLocal i).line.discards = s.line.discards ∧
    (s.beginLocal i).line.ignoring = s.line.ignoring ∧
    (s.beginLocal i).line.replacement = s.line.replacement ∧ (s.beginLocal i).writes = s.writes ∧
    (s.beginLocal i).repair.list = s.repair.list ∧
    (s.beginLocal i).client.outcome = s.client.outcome ∧
    (s.beginLocal i).client.tag = s.client.tag ∧
    (s.beginLocal i).client.transaction = s.client.transaction ∧
    (s.beginLocal i).client.events = s.client.events ∧
    (s.beginLocal i).client.dropped = s.client.dropped ∧ (s.beginLocal i).pending = s.pending := by
  unfold State.beginLocal
  (repeat' split) <;> simp

@[simp] theorem State.reportClientAt_keeps (id : Nat) (m : MediaReport) (i : Fin 4) :
    (s.reportClientAt id m i).control = s.control ∧ (s.reportClientAt id m i).member = s.member ∧
    (s.reportClientAt id m i).store = s.store ∧
    (s.reportClientAt id m i).media.port = s.media.port ∧
    (s.reportClientAt id m i).media.retired = s.media.retired ∧
    (s.reportClientAt id m i).media.sectors = s.media.sectors ∧
    (s.reportClientAt id m i).media.spares = s.media.spares ∧
    (s.reportClientAt id m i).mount = s.mount ∧
    (s.reportClientAt id m i).line.discards = s.line.discards ∧
    (s.reportClientAt id m i).line.ignoring = s.line.ignoring ∧
    (s.reportClientAt id m i).line.replacement = s.line.replacement ∧
    (s.reportClientAt id m i).writes = s.writes ∧
    (s.reportClientAt id m i).repair.list = s.repair.list ∧
    (s.reportClientAt id m i).client.outcome = s.client.outcome ∧
    (s.reportClientAt id m i).client.tag = s.client.tag ∧
    (s.reportClientAt id m i).client.transaction = s.client.transaction ∧
    (s.reportClientAt id m i).client.events = s.client.events ∧
    (s.reportClientAt id m i).client.dropped = s.client.dropped ∧
    (s.reportClientAt id m i).pending = s.pending := by
  unfold State.reportClientAt
  dsimp only
  (repeat' split) <;> simp

@[simp] theorem State.reportClient_keeps (id : Nat) (m : MediaReport) :
    (s.reportClient id m).control = s.control ∧ (s.reportClient id m).member = s.member ∧
    (s.reportClient id m).store = s.store ∧ (s.reportClient id m).media.port = s.media.port ∧
    (s.reportClient id m).media.retired = s.media.retired ∧
    (s.reportClient id m).media.sectors = s.media.sectors ∧
    (s.reportClient id m).media.spares = s.media.spares ∧ (s.reportClient id m).mount = s.mount ∧
    (s.reportClient id m).line.discards = s.line.discards ∧
    (s.reportClient id m).line.ignoring = s.line.ignoring ∧
    (s.reportClient id m).line.replacement = s.line.replacement ∧
    (s.reportClient id m).writes = s.writes ∧ (s.reportClient id m).repair.list = s.repair.list ∧
    (s.reportClient id m).client.outcome = s.client.outcome ∧
    (s.reportClient id m).client.tag = s.client.tag ∧
    (s.reportClient id m).client.transaction = s.client.transaction ∧
    (s.reportClient id m).client.events = s.client.events ∧
    (s.reportClient id m).client.dropped = s.client.dropped ∧
    (s.reportClient id m).pending = s.pending := by
  have h := foldl_keeps (fun s : State =>
    (s.control, s.member, s.store, s.media.port, s.media.retired, s.media.sectors, s.media.spares,
    s.mount, s.line.discards, s.line.ignoring, s.line.replacement, s.writes, s.repair.list, s.client.outcome,
    s.client.tag, s.client.transaction, s.client.events, s.client.dropped, s.pending)) (fun s i =>
    s.reportClientAt id m i) (fun s i => by simp) (List.finRange 4) s
  simp only [Prod.mk.injEq] at h
  simpa [State.reportClient] using h

@[simp] theorem State.sendReadFetch_keeps (i : Fin 4) (n : StationNo) :
    (s.sendReadFetch i n).control = s.control ∧ (s.sendReadFetch i n).member = s.member ∧
    (s.sendReadFetch i n).store = s.store ∧ (s.sendReadFetch i n).media = s.media ∧
    (s.sendReadFetch i n).mount = s.mount ∧ (s.sendReadFetch i n).line.discards = s.line.discards ∧
    (s.sendReadFetch i n).line.ignoring = s.line.ignoring ∧
    (s.sendReadFetch i n).line.replacement = s.line.replacement ∧
    (s.sendReadFetch i n).writes = s.writes ∧ (s.sendReadFetch i n).repair.list = s.repair.list ∧
    (s.sendReadFetch i n).client = s.client ∧ (s.sendReadFetch i n).pending = s.pending := by
  unfold State.sendReadFetch
  dsimp only
  simp

@[simp] theorem State.nextTarget_keeps (i : Fin 4) :
    (s.nextTarget i).control = s.control ∧ (s.nextTarget i).member = s.member ∧
    (s.nextTarget i).store = s.store ∧ (s.nextTarget i).media.port = s.media.port ∧
    (s.nextTarget i).media.retired = s.media.retired ∧
    (s.nextTarget i).media.sectors = s.media.sectors ∧
    (s.nextTarget i).media.spares = s.media.spares ∧ (s.nextTarget i).mount = s.mount ∧
    (s.nextTarget i).line.discards = s.line.discards ∧
    (s.nextTarget i).line.ignoring = s.line.ignoring ∧
    (s.nextTarget i).line.replacement = s.line.replacement ∧ (s.nextTarget i).writes = s.writes ∧
    (s.nextTarget i).repair.list = s.repair.list ∧
    (s.nextTarget i).client.outcome = s.client.outcome ∧
    (s.nextTarget i).client.tag = s.client.tag ∧
    (s.nextTarget i).client.transaction = s.client.transaction ∧
    (s.nextTarget i).client.events = s.client.events ∧
    (s.nextTarget i).client.dropped = s.client.dropped ∧ (s.nextTarget i).pending = s.pending := by
  unfold State.nextTarget
  dsimp only
  (repeat' split) <;> simp

@[simp] theorem State.giveUpTarget_keeps (i : Fin 4) :
    (s.giveUpTarget i).control = s.control ∧ (s.giveUpTarget i).member = s.member ∧
    (s.giveUpTarget i).store = s.store ∧ (s.giveUpTarget i).media.port = s.media.port ∧
    (s.giveUpTarget i).media.retired = s.media.retired ∧
    (s.giveUpTarget i).media.sectors = s.media.sectors ∧
    (s.giveUpTarget i).media.spares = s.media.spares ∧ (s.giveUpTarget i).mount = s.mount ∧
    (s.giveUpTarget i).line.discards = s.line.discards ∧
    (s.giveUpTarget i).line.ignoring = s.line.ignoring ∧
    (s.giveUpTarget i).line.replacement = s.line.replacement ∧
    (s.giveUpTarget i).writes = s.writes ∧ (s.giveUpTarget i).repair.list = s.repair.list ∧
    (s.giveUpTarget i).client.outcome = s.client.outcome ∧
    (s.giveUpTarget i).client.tag = s.client.tag ∧
    (s.giveUpTarget i).client.transaction = s.client.transaction ∧
    (s.giveUpTarget i).client.events = s.client.events ∧
    (s.giveUpTarget i).client.dropped = s.client.dropped ∧
    (s.giveUpTarget i).pending = s.pending := by
  unfold State.giveUpTarget
  dsimp only
  (repeat' split) <;> simp

@[simp] theorem State.endCollection_keeps (i : Fin 4) :
    (s.endCollection i).control = s.control ∧ (s.endCollection i).member = s.member ∧
    (s.endCollection i).store = s.store ∧ (s.endCollection i).media.port = s.media.port ∧
    (s.endCollection i).media.retired = s.media.retired ∧
    (s.endCollection i).media.sectors = s.media.sectors ∧
    (s.endCollection i).media.spares = s.media.spares ∧ (s.endCollection i).mount = s.mount ∧
    (s.endCollection i).line.discards = s.line.discards ∧
    (s.endCollection i).line.ignoring = s.line.ignoring ∧
    (s.endCollection i).line.replacement = s.line.replacement ∧
    (s.endCollection i).writes = s.writes ∧ (s.endCollection i).repair.list = s.repair.list ∧
    (s.endCollection i).client.outcome = s.client.outcome ∧
    (s.endCollection i).client.tag = s.client.tag ∧
    (s.endCollection i).client.transaction = s.client.transaction ∧
    (s.endCollection i).client.events = s.client.events ∧
    (s.endCollection i).client.dropped = s.client.dropped ∧
    (s.endCollection i).pending = s.pending := by
  unfold State.endCollection
  dsimp only
  (repeat' split) <;> simp

@[simp] theorem State.sendQuery_keeps (i : Fin 4) :
    (s.sendQuery i).control = s.control ∧ (s.sendQuery i).member = s.member ∧
    (s.sendQuery i).store = s.store ∧ (s.sendQuery i).media = s.media ∧
    (s.sendQuery i).mount = s.mount ∧ (s.sendQuery i).line.discards = s.line.discards ∧
    (s.sendQuery i).line.ignoring = s.line.ignoring ∧
    (s.sendQuery i).line.replacement = s.line.replacement ∧ (s.sendQuery i).writes = s.writes ∧
    (s.sendQuery i).repair.list = s.repair.list ∧ (s.sendQuery i).client = s.client ∧
    (s.sendQuery i).pending = s.pending := by
  unfold State.sendQuery
  dsimp only
  simp

@[simp] theorem State.enterReport_keeps (i : Fin 4) (n : StationNo) (r : Report) :
    (s.enterReport i n r).control = s.control ∧ (s.enterReport i n r).member = s.member ∧
    (s.enterReport i n r).store = s.store ∧ (s.enterReport i n r).media.port = s.media.port ∧
    (s.enterReport i n r).media.retired = s.media.retired ∧
    (s.enterReport i n r).media.sectors = s.media.sectors ∧
    (s.enterReport i n r).media.spares = s.media.spares ∧ (s.enterReport i n r).mount = s.mount ∧
    (s.enterReport i n r).line.discards = s.line.discards ∧
    (s.enterReport i n r).line.ignoring = s.line.ignoring ∧
    (s.enterReport i n r).line.replacement = s.line.replacement ∧
    (s.enterReport i n r).writes = s.writes ∧ (s.enterReport i n r).repair.list = s.repair.list ∧
    (s.enterReport i n r).client.outcome = s.client.outcome ∧
    (s.enterReport i n r).client.tag = s.client.tag ∧
    (s.enterReport i n r).client.transaction = s.client.transaction ∧
    (s.enterReport i n r).client.events = s.client.events ∧
    (s.enterReport i n r).client.dropped = s.client.dropped ∧
    (s.enterReport i n r).pending = s.pending := by
  unfold State.enterReport
  dsimp only
  (repeat' split) <;> simp

@[simp] theorem State.beginFresh_keeps (i : Fin 4) :
    (s.beginFresh i).control = s.control ∧ (s.beginFresh i).member = s.member ∧
    (s.beginFresh i).store = s.store ∧ (s.beginFresh i).media.port = s.media.port ∧
    (s.beginFresh i).media.retired = s.media.retired ∧
    (s.beginFresh i).media.sectors = s.media.sectors ∧
    (s.beginFresh i).media.spares = s.media.spares ∧ (s.beginFresh i).mount = s.mount ∧
    (s.beginFresh i).line.discards = s.line.discards ∧
    (s.beginFresh i).line.ignoring = s.line.ignoring ∧
    (s.beginFresh i).line.replacement = s.line.replacement ∧ (s.beginFresh i).writes = s.writes ∧
    (s.beginFresh i).repair.list = s.repair.list ∧
    (s.beginFresh i).client.outcome = s.client.outcome ∧
    (s.beginFresh i).client.tag = s.client.tag ∧
    (s.beginFresh i).client.transaction = s.client.transaction ∧
    (s.beginFresh i).client.events = s.client.events ∧
    (s.beginFresh i).client.dropped = s.client.dropped ∧ (s.beginFresh i).pending = s.pending := by
  unfold State.beginFresh
  dsimp only
  (repeat' split) <;> simp

@[simp] theorem State.queryExpired_keeps (i : Fin 4) :
    (s.queryExpired i).control = s.control ∧ (s.queryExpired i).member = s.member ∧
    (s.queryExpired i).store = s.store ∧ (s.queryExpired i).media.port = s.media.port ∧
    (s.queryExpired i).media.retired = s.media.retired ∧
    (s.queryExpired i).media.sectors = s.media.sectors ∧
    (s.queryExpired i).media.spares = s.media.spares ∧ (s.queryExpired i).mount = s.mount ∧
    (s.queryExpired i).line.discards = s.line.discards ∧
    (s.queryExpired i).line.ignoring = s.line.ignoring ∧
    (s.queryExpired i).line.replacement = s.line.replacement ∧
    (s.queryExpired i).writes = s.writes ∧ (s.queryExpired i).repair.list = s.repair.list ∧
    (s.queryExpired i).client.outcome = s.client.outcome ∧
    (s.queryExpired i).client.tag = s.client.tag ∧
    (s.queryExpired i).client.transaction = s.client.transaction ∧
    (s.queryExpired i).client.events = s.client.events ∧
    (s.queryExpired i).client.dropped = s.client.dropped ∧
    (s.queryExpired i).pending = s.pending := by
  unfold State.queryExpired
  dsimp only
  (repeat' split) <;> simp

@[simp] theorem State.noteAdvanceAt_keeps (b : Nat) (v : Version) (i : Fin 4) :
    (s.noteAdvanceAt b v i).control = s.control ∧ (s.noteAdvanceAt b v i).member = s.member ∧
    (s.noteAdvanceAt b v i).store = s.store ∧ (s.noteAdvanceAt b v i).media = s.media ∧
    (s.noteAdvanceAt b v i).mount = s.mount ∧ (s.noteAdvanceAt b v i).line = s.line ∧
    (s.noteAdvanceAt b v i).writes = s.writes ∧ (s.noteAdvanceAt b v i).repair = s.repair ∧
    (s.noteAdvanceAt b v i).client = s.client ∧ (s.noteAdvanceAt b v i).pending = s.pending := by
  unfold State.noteAdvanceAt
  dsimp only
  (repeat' split) <;> simp

@[simp] theorem State.noteAdvance_keeps (b : Nat) (v : Version) :
    (s.noteAdvance b v).control = s.control ∧ (s.noteAdvance b v).member = s.member ∧
    (s.noteAdvance b v).store = s.store ∧ (s.noteAdvance b v).media = s.media ∧
    (s.noteAdvance b v).mount = s.mount ∧ (s.noteAdvance b v).line = s.line ∧
    (s.noteAdvance b v).writes = s.writes ∧ (s.noteAdvance b v).repair = s.repair ∧
    (s.noteAdvance b v).client = s.client ∧ (s.noteAdvance b v).pending = s.pending := by
  have h := foldl_keeps (fun s : State =>
    (s.control, s.member, s.store, s.media, s.mount, s.line, s.writes, s.repair, s.client,
    s.pending)) (fun s i => s.noteAdvanceAt b v i) (fun s i => by simp) (List.finRange 4) s
  simp only [Prod.mk.injEq] at h
  simpa [State.noteAdvance] using h

@[simp] theorem State.readPeerLostAt_keeps (n : StationNo) (i : Fin 4) :
    (s.readPeerLostAt n i).control = s.control ∧ (s.readPeerLostAt n i).member = s.member ∧
    (s.readPeerLostAt n i).store = s.store ∧ (s.readPeerLostAt n i).media.port = s.media.port ∧
    (s.readPeerLostAt n i).media.retired = s.media.retired ∧
    (s.readPeerLostAt n i).media.sectors = s.media.sectors ∧
    (s.readPeerLostAt n i).media.spares = s.media.spares ∧ (s.readPeerLostAt n i).mount = s.mount ∧
    (s.readPeerLostAt n i).line.discards = s.line.discards ∧
    (s.readPeerLostAt n i).line.ignoring = s.line.ignoring ∧
    (s.readPeerLostAt n i).line.replacement = s.line.replacement ∧
    (s.readPeerLostAt n i).writes = s.writes ∧ (s.readPeerLostAt n i).repair.list = s.repair.list ∧
    (s.readPeerLostAt n i).client.outcome = s.client.outcome ∧
    (s.readPeerLostAt n i).client.tag = s.client.tag ∧
    (s.readPeerLostAt n i).client.transaction = s.client.transaction ∧
    (s.readPeerLostAt n i).client.events = s.client.events ∧
    (s.readPeerLostAt n i).client.dropped = s.client.dropped ∧
    (s.readPeerLostAt n i).pending = s.pending := by
  unfold State.readPeerLostAt
  dsimp only
  (repeat' split) <;> simp

@[simp] theorem State.readPeerLost_keeps (n : StationNo) :
    (s.readPeerLost n).control = s.control ∧ (s.readPeerLost n).member = s.member ∧
    (s.readPeerLost n).store = s.store ∧ (s.readPeerLost n).media.port = s.media.port ∧
    (s.readPeerLost n).media.retired = s.media.retired ∧
    (s.readPeerLost n).media.sectors = s.media.sectors ∧
    (s.readPeerLost n).media.spares = s.media.spares ∧ (s.readPeerLost n).mount = s.mount ∧
    (s.readPeerLost n).line.discards = s.line.discards ∧
    (s.readPeerLost n).line.ignoring = s.line.ignoring ∧
    (s.readPeerLost n).line.replacement = s.line.replacement ∧
    (s.readPeerLost n).writes = s.writes ∧ (s.readPeerLost n).repair.list = s.repair.list ∧
    (s.readPeerLost n).client.outcome = s.client.outcome ∧
    (s.readPeerLost n).client.tag = s.client.tag ∧
    (s.readPeerLost n).client.transaction = s.client.transaction ∧
    (s.readPeerLost n).client.events = s.client.events ∧
    (s.readPeerLost n).client.dropped = s.client.dropped ∧
    (s.readPeerLost n).pending = s.pending := by
  have h := foldl_keeps (fun s : State =>
    (s.control, s.member, s.store, s.media.port, s.media.retired, s.media.sectors, s.media.spares,
    s.mount, s.line.discards, s.line.ignoring, s.line.replacement, s.writes, s.repair.list, s.client.outcome,
    s.client.tag, s.client.transaction, s.client.events, s.client.dropped, s.pending)) (fun s i =>
    s.readPeerLostAt n i) (fun s i => by simp) (List.finRange 4) s
  simp only [Prod.mk.injEq] at h
  simpa [State.readPeerLost] using h

@[simp] theorem State.isolateReadAt_keeps (i : Fin 4) :
    (s.isolateReadAt i).control = s.control ∧ (s.isolateReadAt i).member = s.member ∧
    (s.isolateReadAt i).store = s.store ∧ (s.isolateReadAt i).media.port = s.media.port ∧
    (s.isolateReadAt i).media.retired = s.media.retired ∧
    (s.isolateReadAt i).media.sectors = s.media.sectors ∧
    (s.isolateReadAt i).media.spares = s.media.spares ∧ (s.isolateReadAt i).mount = s.mount ∧
    (s.isolateReadAt i).line.discards = s.line.discards ∧
    (s.isolateReadAt i).line.ignoring = s.line.ignoring ∧
    (s.isolateReadAt i).line.replacement = s.line.replacement ∧
    (s.isolateReadAt i).writes = s.writes ∧ (s.isolateReadAt i).repair.list = s.repair.list ∧
    (s.isolateReadAt i).client.outcome = s.client.outcome ∧
    (s.isolateReadAt i).client.tag = s.client.tag ∧
    (s.isolateReadAt i).client.transaction = s.client.transaction ∧
    (s.isolateReadAt i).client.events = s.client.events ∧
    (s.isolateReadAt i).client.dropped = s.client.dropped ∧
    (s.isolateReadAt i).pending = s.pending := by
  unfold State.isolateReadAt
  dsimp only
  (repeat' split) <;> simp

@[simp] theorem State.isolateReads_keeps :
    s.isolateReads.control = s.control ∧ s.isolateReads.member = s.member ∧
    s.isolateReads.store = s.store ∧ s.isolateReads.media.port = s.media.port ∧
    s.isolateReads.media.retired = s.media.retired ∧
    s.isolateReads.media.sectors = s.media.sectors ∧ s.isolateReads.media.spares = s.media.spares ∧
    s.isolateReads.mount = s.mount ∧ s.isolateReads.line.discards = s.line.discards ∧
    s.isolateReads.line.ignoring = s.line.ignoring ∧
    s.isolateReads.line.replacement = s.line.replacement ∧ s.isolateReads.writes = s.writes ∧
    s.isolateReads.repair.list = s.repair.list ∧ s.isolateReads.client.outcome = s.client.outcome ∧
    s.isolateReads.client.tag = s.client.tag ∧
    s.isolateReads.client.transaction = s.client.transaction ∧
    s.isolateReads.client.events = s.client.events ∧
    s.isolateReads.client.dropped = s.client.dropped ∧ s.isolateReads.pending = s.pending := by
  have h := foldl_keeps (fun s : State =>
    (s.control, s.member, s.store, s.media.port, s.media.retired, s.media.sectors, s.media.spares,
    s.mount, s.line.discards, s.line.ignoring, s.line.replacement, s.writes, s.repair.list, s.client.outcome,
    s.client.tag, s.client.transaction, s.client.events, s.client.dropped, s.pending))
    State.isolateReadAt (fun s i => by simp) (List.finRange 4) s
  simp only [Prod.mk.injEq] at h
  simpa [State.isolateReads] using h

@[simp] theorem State.sendSlotFetch_keeps (n : StationNo) (b : Nat) :
    (s.sendSlotFetch n b).control = s.control ∧ (s.sendSlotFetch n b).member = s.member ∧
    (s.sendSlotFetch n b).store = s.store ∧ (s.sendSlotFetch n b).media = s.media ∧
    (s.sendSlotFetch n b).mount = s.mount ∧ (s.sendSlotFetch n b).line.discards = s.line.discards ∧
    (s.sendSlotFetch n b).line.ignoring = s.line.ignoring ∧
    (s.sendSlotFetch n b).line.replacement = s.line.replacement ∧
    (s.sendSlotFetch n b).writes = s.writes ∧ (s.sendSlotFetch n b).reads = s.reads ∧
    (s.sendSlotFetch n b).repair.list = s.repair.list ∧ (s.sendSlotFetch n b).client = s.client ∧
    (s.sendSlotFetch n b).pending = s.pending := by
  unfold State.sendSlotFetch
  dsimp only
  simp

@[simp] theorem State.unlistRepair_keeps (b : Nat) :
    (s.unlistRepair b).control = s.control ∧ (s.unlistRepair b).member = s.member ∧
    (s.unlistRepair b).store = s.store ∧ (s.unlistRepair b).media = s.media ∧
    (s.unlistRepair b).mount = s.mount ∧ (s.unlistRepair b).line = s.line ∧
    (s.unlistRepair b).writes = s.writes ∧ (s.unlistRepair b).reads = s.reads ∧
    (s.unlistRepair b).client = s.client ∧ (s.unlistRepair b).pending = s.pending := by
  unfold State.unlistRepair
  simp

@[simp] theorem State.chooseFetchTarget_keeps (b : Nat) :
    (s.chooseFetchTarget b).control = s.control ∧ (s.chooseFetchTarget b).member = s.member ∧
    (s.chooseFetchTarget b).store = s.store ∧ (s.chooseFetchTarget b).media = s.media ∧
    (s.chooseFetchTarget b).mount = s.mount ∧
    (s.chooseFetchTarget b).line.discards = s.line.discards ∧
    (s.chooseFetchTarget b).line.ignoring = s.line.ignoring ∧
    (s.chooseFetchTarget b).line.replacement = s.line.replacement ∧
    (s.chooseFetchTarget b).writes = s.writes ∧ (s.chooseFetchTarget b).reads = s.reads ∧
    (s.chooseFetchTarget b).client.outcome = s.client.outcome ∧
    (s.chooseFetchTarget b).client.tag = s.client.tag ∧
    (s.chooseFetchTarget b).client.completions = s.client.completions ∧
    (s.chooseFetchTarget b).pending = s.pending := by
  unfold State.chooseFetchTarget
  (repeat' split) <;> simp

@[simp] theorem State.takeRepairHead_keeps :
    s.takeRepairHead.control = s.control ∧ s.takeRepairHead.member = s.member ∧
    s.takeRepairHead.store = s.store ∧ s.takeRepairHead.media = s.media ∧
    s.takeRepairHead.mount = s.mount ∧ s.takeRepairHead.line.discards = s.line.discards ∧
    s.takeRepairHead.line.ignoring = s.line.ignoring ∧
    s.takeRepairHead.line.replacement = s.line.replacement ∧ s.takeRepairHead.writes = s.writes ∧
    s.takeRepairHead.reads = s.reads ∧ s.takeRepairHead.client.outcome = s.client.outcome ∧
    s.takeRepairHead.client.tag = s.client.tag ∧
    s.takeRepairHead.client.completions = s.client.completions ∧
    s.takeRepairHead.pending = s.pending := by
  unfold State.takeRepairHead
  dsimp only
  (repeat' split) <;> simp

@[simp] theorem State.giveUpFetch_keeps :
    s.giveUpFetch.control = s.control ∧ s.giveUpFetch.member = s.member ∧
    s.giveUpFetch.store = s.store ∧ s.giveUpFetch.media = s.media ∧ s.giveUpFetch.mount = s.mount ∧
    s.giveUpFetch.line.discards = s.line.discards ∧
    s.giveUpFetch.line.ignoring = s.line.ignoring ∧
    s.giveUpFetch.line.replacement = s.line.replacement ∧ s.giveUpFetch.writes = s.writes ∧
    s.giveUpFetch.reads = s.reads ∧ s.giveUpFetch.client.outcome = s.client.outcome ∧
    s.giveUpFetch.client.tag = s.client.tag ∧
    s.giveUpFetch.client.completions = s.client.completions ∧
    s.giveUpFetch.pending = s.pending := by
  unfold State.giveUpFetch
  dsimp only
  (repeat' split) <;> simp

@[simp] theorem State.endFetch_keeps :
    s.endFetch.control = s.control ∧ s.endFetch.member = s.member ∧ s.endFetch.store = s.store ∧
    s.endFetch.media = s.media ∧ s.endFetch.mount = s.mount ∧
    s.endFetch.line.discards = s.line.discards ∧
    s.endFetch.line.ignoring = s.line.ignoring ∧ s.endFetch.line.replacement = s.line.replacement ∧
    s.endFetch.writes = s.writes ∧ s.endFetch.reads = s.reads ∧
    s.endFetch.repair.list = s.repair.list ∧ s.endFetch.client = s.client ∧
    s.endFetch.pending = s.pending := by
  unfold State.endFetch
  simp

@[simp] theorem State.fetchBusy_keeps :
    s.fetchBusy.control = s.control ∧ s.fetchBusy.member = s.member ∧ s.fetchBusy.store = s.store ∧
    s.fetchBusy.media = s.media ∧ s.fetchBusy.mount = s.mount ∧
    s.fetchBusy.line.discards = s.line.discards ∧
    s.fetchBusy.line.ignoring = s.line.ignoring ∧
    s.fetchBusy.line.replacement = s.line.replacement ∧ s.fetchBusy.writes = s.writes ∧
    s.fetchBusy.reads = s.reads ∧ s.fetchBusy.repair.list = s.repair.list ∧
    s.fetchBusy.client = s.client ∧ s.fetchBusy.pending = s.pending := by
  unfold State.fetchBusy
  simp

@[simp] theorem State.fetchPeerLost_keeps (n : StationNo) :
    (s.fetchPeerLost n).control = s.control ∧ (s.fetchPeerLost n).member = s.member ∧
    (s.fetchPeerLost n).store = s.store ∧ (s.fetchPeerLost n).media = s.media ∧
    (s.fetchPeerLost n).mount = s.mount ∧ (s.fetchPeerLost n).line.discards = s.line.discards ∧
    (s.fetchPeerLost n).line.ignoring = s.line.ignoring ∧
    (s.fetchPeerLost n).line.replacement = s.line.replacement ∧
    (s.fetchPeerLost n).writes = s.writes ∧ (s.fetchPeerLost n).reads = s.reads ∧
    (s.fetchPeerLost n).client.outcome = s.client.outcome ∧
    (s.fetchPeerLost n).client.tag = s.client.tag ∧
    (s.fetchPeerLost n).client.completions = s.client.completions ∧
    (s.fetchPeerLost n).pending = s.pending := by
  unfold State.fetchPeerLost
  (repeat' split) <;> simp

@[simp] theorem State.dropEngineRequest_keeps (id : Nat) :
    (s.dropEngineRequest id).control = s.control ∧ (s.dropEngineRequest id).member = s.member ∧
    (s.dropEngineRequest id).store = s.store ∧ (s.dropEngineRequest id).media.port = s.media.port ∧
    (s.dropEngineRequest id).media.retired = s.media.retired ∧
    (s.dropEngineRequest id).media.sectors = s.media.sectors ∧
    (s.dropEngineRequest id).media.spares = s.media.spares ∧
    (s.dropEngineRequest id).mount = s.mount ∧ (s.dropEngineRequest id).line = s.line ∧
    (s.dropEngineRequest id).writes = s.writes ∧ (s.dropEngineRequest id).reads = s.reads ∧
    (s.dropEngineRequest id).repair = s.repair ∧ (s.dropEngineRequest id).client = s.client ∧
    (s.dropEngineRequest id).pending = s.pending := by
  unfold State.dropEngineRequest
  simp

@[simp] theorem State.stopServe_keeps :
    s.stopServe.control = s.control ∧ s.stopServe.member = s.member ∧ s.stopServe.store = s.store ∧
    s.stopServe.media.port = s.media.port ∧ s.stopServe.media.retired = s.media.retired ∧
    s.stopServe.media.sectors = s.media.sectors ∧ s.stopServe.media.spares = s.media.spares ∧
    s.stopServe.mount = s.mount ∧ s.stopServe.line.discards = s.line.discards ∧
    s.stopServe.line.ignoring = s.line.ignoring ∧
    s.stopServe.line.replacement = s.line.replacement ∧ s.stopServe.writes = s.writes ∧
    s.stopServe.reads = s.reads ∧ s.stopServe.repair.list = s.repair.list ∧
    s.stopServe.client = s.client ∧ s.stopServe.pending = s.pending := by
  unfold State.stopServe
  (repeat' split) <;> simp

@[simp] theorem State.servePeerLost_keeps (n : StationNo) :
    (s.servePeerLost n).control = s.control ∧ (s.servePeerLost n).member = s.member ∧
    (s.servePeerLost n).store = s.store ∧ (s.servePeerLost n).media.port = s.media.port ∧
    (s.servePeerLost n).media.retired = s.media.retired ∧
    (s.servePeerLost n).media.sectors = s.media.sectors ∧
    (s.servePeerLost n).media.spares = s.media.spares ∧ (s.servePeerLost n).mount = s.mount ∧
    (s.servePeerLost n).line.discards = s.line.discards ∧
    (s.servePeerLost n).line.ignoring = s.line.ignoring ∧
    (s.servePeerLost n).line.replacement = s.line.replacement ∧
    (s.servePeerLost n).writes = s.writes ∧ (s.servePeerLost n).reads = s.reads ∧
    (s.servePeerLost n).repair.list = s.repair.list ∧ (s.servePeerLost n).client = s.client ∧
    (s.servePeerLost n).pending = s.pending := by
  unfold State.servePeerLost
  dsimp only
  (repeat' split) <;> simp

@[simp] theorem State.clearServe_keeps :
    s.clearServe.control = s.control ∧ s.clearServe.member = s.member ∧
    s.clearServe.store = s.store ∧ s.clearServe.media.port = s.media.port ∧
    s.clearServe.media.retired = s.media.retired ∧ s.clearServe.media.sectors = s.media.sectors ∧
    s.clearServe.media.spares = s.media.spares ∧ s.clearServe.mount = s.mount ∧
    s.clearServe.line.discards = s.line.discards ∧
    s.clearServe.line.ignoring = s.line.ignoring ∧
    s.clearServe.line.replacement = s.line.replacement ∧ s.clearServe.writes = s.writes ∧
    s.clearServe.reads = s.reads ∧ s.clearServe.repair.list = s.repair.list ∧
    s.clearServe.client = s.client ∧ s.clearServe.pending = s.pending := by
  unfold State.clearServe
  simp

@[simp] theorem State.refuseDigest_keeps (r : ServeRequest) :
    (s.refuseDigest r).control = s.control ∧ (s.refuseDigest r).member = s.member ∧
    (s.refuseDigest r).store = s.store ∧ (s.refuseDigest r).media = s.media ∧
    (s.refuseDigest r).mount = s.mount ∧ (s.refuseDigest r).line.discards = s.line.discards ∧
    (s.refuseDigest r).line.ignoring = s.line.ignoring ∧
    (s.refuseDigest r).line.replacement = s.line.replacement ∧
    (s.refuseDigest r).writes = s.writes ∧ (s.refuseDigest r).reads = s.reads ∧
    (s.refuseDigest r).repair.list = s.repair.list ∧ (s.refuseDigest r).client = s.client ∧
    (s.refuseDigest r).pending = s.pending := by
  unfold State.refuseDigest
  (repeat' split) <;> simp

@[simp] theorem State.isolateServeSlot_keeps :
    s.isolateServeSlot.control = s.control ∧ s.isolateServeSlot.member = s.member ∧
    s.isolateServeSlot.store = s.store ∧ s.isolateServeSlot.media.port = s.media.port ∧
    s.isolateServeSlot.media.retired = s.media.retired ∧
    s.isolateServeSlot.media.sectors = s.media.sectors ∧
    s.isolateServeSlot.media.spares = s.media.spares ∧ s.isolateServeSlot.mount = s.mount ∧
    s.isolateServeSlot.line.discards = s.line.discards ∧
    s.isolateServeSlot.line.ignoring = s.line.ignoring ∧
    s.isolateServeSlot.line.replacement = s.line.replacement ∧
    s.isolateServeSlot.writes = s.writes ∧ s.isolateServeSlot.reads = s.reads ∧
    s.isolateServeSlot.repair.list = s.repair.list ∧ s.isolateServeSlot.client = s.client ∧
    s.isolateServeSlot.pending = s.pending := by
  unfold State.isolateServeSlot
  (repeat' split) <;> simp

@[simp] theorem State.isolateServeQueue_keeps :
    s.isolateServeQueue.control = s.control ∧ s.isolateServeQueue.member = s.member ∧
    s.isolateServeQueue.store = s.store ∧ s.isolateServeQueue.media = s.media ∧
    s.isolateServeQueue.mount = s.mount ∧ s.isolateServeQueue.line.discards = s.line.discards ∧
    s.isolateServeQueue.line.ignoring = s.line.ignoring ∧
    s.isolateServeQueue.line.replacement = s.line.replacement ∧
    s.isolateServeQueue.writes = s.writes ∧ s.isolateServeQueue.reads = s.reads ∧
    s.isolateServeQueue.repair.list = s.repair.list ∧ s.isolateServeQueue.client = s.client ∧
    s.isolateServeQueue.pending = s.pending := by
  have h := foldl_keeps (fun s : State =>
    (s.control, s.member, s.store, s.media, s.mount, s.line.discards, s.line.ignoring, s.line.replacement,
    s.writes, s.reads, s.repair.list, s.client, s.pending)) State.refuseDigest (fun s i => by
    simp) (s.repair.serveQueue.filter (·.digestRange.isSome)) (s.onRepair fun r => { r with
    serveQueue := r.serveQueue.filter (·.digestRange.isNone) })
  simp only [Prod.mk.injEq] at h
  simpa [State.isolateServeQueue] using h

@[simp] theorem State.haltCursor_keeps :
    s.haltCursor.control = s.control ∧ s.haltCursor.member = s.member ∧
    s.haltCursor.store = s.store ∧ s.haltCursor.media.port = s.media.port ∧
    s.haltCursor.media.retired = s.media.retired ∧ s.haltCursor.media.sectors = s.media.sectors ∧
    s.haltCursor.media.spares = s.media.spares ∧ s.haltCursor.mount = s.mount ∧
    s.haltCursor.line.discards = s.line.discards ∧
    s.haltCursor.line.ignoring = s.line.ignoring ∧
    s.haltCursor.line.replacement = s.line.replacement ∧ s.haltCursor.writes = s.writes ∧
    s.haltCursor.reads = s.reads ∧ s.haltCursor.repair.list = s.repair.list ∧
    s.haltCursor.client = s.client ∧ s.haltCursor.pending = s.pending := by
  unfold State.haltCursor
  dsimp only
  (repeat' split) <;> simp

@[simp] theorem State.startDigest_keeps :
    s.startDigest.control = s.control ∧ s.startDigest.member = s.member ∧
    s.startDigest.store = s.store ∧ s.startDigest.media = s.media ∧ s.startDigest.mount = s.mount ∧
    s.startDigest.line.discards = s.line.discards ∧
    s.startDigest.line.ignoring = s.line.ignoring ∧
    s.startDigest.line.replacement = s.line.replacement ∧ s.startDigest.writes = s.writes ∧
    s.startDigest.reads = s.reads ∧ s.startDigest.repair.list = s.repair.list ∧
    s.startDigest.client = s.client ∧ s.startDigest.pending = s.pending := by
  unfold State.startDigest
  dsimp only
  (repeat' split) <;> simp

@[simp] theorem State.chooseServer_keeps :
    s.chooseServer.control = s.control ∧ s.chooseServer.member = s.member ∧
    s.chooseServer.store = s.store ∧ s.chooseServer.media = s.media ∧
    s.chooseServer.mount = s.mount ∧ s.chooseServer.line.discards = s.line.discards ∧
    s.chooseServer.line.ignoring = s.line.ignoring ∧
    s.chooseServer.line.replacement = s.line.replacement ∧ s.chooseServer.writes = s.writes ∧
    s.chooseServer.reads = s.reads ∧ s.chooseServer.repair.list = s.repair.list ∧
    s.chooseServer.client = s.client ∧ s.chooseServer.pending = s.pending := by
  unfold State.chooseServer
  dsimp only
  (repeat' split) <;> simp

@[simp] theorem State.dropServer_keeps :
    s.dropServer.control = s.control ∧ s.dropServer.member = s.member ∧
    s.dropServer.store = s.store ∧ s.dropServer.media.port = s.media.port ∧
    s.dropServer.media.retired = s.media.retired ∧ s.dropServer.media.sectors = s.media.sectors ∧
    s.dropServer.media.spares = s.media.spares ∧ s.dropServer.mount = s.mount ∧
    s.dropServer.line.discards = s.line.discards ∧
    s.dropServer.line.ignoring = s.line.ignoring ∧
    s.dropServer.line.replacement = s.line.replacement ∧ s.dropServer.writes = s.writes ∧
    s.dropServer.reads = s.reads ∧ s.dropServer.repair.list = s.repair.list ∧
    s.dropServer.client = s.client ∧ s.dropServer.pending = s.pending := by
  unfold State.dropServer
  simp

@[simp] theorem State.failAttempt_keeps :
    s.failAttempt.control = s.control ∧ s.failAttempt.member = s.member ∧
    s.failAttempt.store = s.store ∧ s.failAttempt.media.port = s.media.port ∧
    s.failAttempt.media.retired = s.media.retired ∧ s.failAttempt.media.sectors = s.media.sectors ∧
    s.failAttempt.media.spares = s.media.spares ∧ s.failAttempt.mount = s.mount ∧
    s.failAttempt.line.discards = s.line.discards ∧
    s.failAttempt.line.ignoring = s.line.ignoring ∧
    s.failAttempt.line.replacement = s.line.replacement ∧ s.failAttempt.writes = s.writes ∧
    s.failAttempt.reads = s.reads ∧ s.failAttempt.repair.list = s.repair.list ∧
    s.failAttempt.client = s.client ∧ s.failAttempt.pending = s.pending := by
  unfold State.failAttempt
  (repeat' split) <;> simp

@[simp] theorem State.stopCursor_keeps :
    s.stopCursor.control = s.control ∧ s.stopCursor.member = s.member ∧
    s.stopCursor.store = s.store ∧ s.stopCursor.media.port = s.media.port ∧
    s.stopCursor.media.retired = s.media.retired ∧ s.stopCursor.media.sectors = s.media.sectors ∧
    s.stopCursor.media.spares = s.media.spares ∧ s.stopCursor.mount = s.mount ∧
    s.stopCursor.line.discards = s.line.discards ∧
    s.stopCursor.line.ignoring = s.line.ignoring ∧
    s.stopCursor.line.replacement = s.line.replacement ∧ s.stopCursor.writes = s.writes ∧
    s.stopCursor.reads = s.reads ∧ s.stopCursor.repair.list = s.repair.list ∧
    s.stopCursor.client = s.client ∧ s.stopCursor.pending = s.pending := by
  unfold State.stopCursor
  (repeat' split) <;> simp

@[simp] theorem State.startCursor_keeps (n : StationNo) :
    (s.startCursor n).control = s.control ∧ (s.startCursor n).member = s.member ∧
    (s.startCursor n).store = s.store ∧ (s.startCursor n).media = s.media ∧
    (s.startCursor n).mount = s.mount ∧ (s.startCursor n).line.discards = s.line.discards ∧
    (s.startCursor n).line.ignoring = s.line.ignoring ∧
    (s.startCursor n).line.replacement = s.line.replacement ∧ (s.startCursor n).writes = s.writes ∧
    (s.startCursor n).reads = s.reads ∧ (s.startCursor n).repair.list = s.repair.list ∧
    (s.startCursor n).client = s.client ∧ (s.startCursor n).pending = s.pending := by
  unfold State.startCursor
  dsimp only
  simp

@[simp] theorem State.cursorPeerLost_keeps (n : StationNo) :
    (s.cursorPeerLost n).control = s.control ∧ (s.cursorPeerLost n).member = s.member ∧
    (s.cursorPeerLost n).store = s.store ∧ (s.cursorPeerLost n).media.port = s.media.port ∧
    (s.cursorPeerLost n).media.retired = s.media.retired ∧
    (s.cursorPeerLost n).media.sectors = s.media.sectors ∧
    (s.cursorPeerLost n).media.spares = s.media.spares ∧ (s.cursorPeerLost n).mount = s.mount ∧
    (s.cursorPeerLost n).line.discards = s.line.discards ∧
    (s.cursorPeerLost n).line.ignoring = s.line.ignoring ∧
    (s.cursorPeerLost n).line.replacement = s.line.replacement ∧
    (s.cursorPeerLost n).writes = s.writes ∧ (s.cursorPeerLost n).reads = s.reads ∧
    (s.cursorPeerLost n).repair.list = s.repair.list ∧ (s.cursorPeerLost n).client = s.client ∧
    (s.cursorPeerLost n).pending = s.pending := by
  unfold State.cursorPeerLost
  (repeat' split) <;> simp

@[simp] theorem State.peerLost_keeps (n : StationNo) :
    (s.peerLost n).control = s.control ∧ (s.peerLost n).member = s.member ∧
    (s.peerLost n).store = s.store ∧ (s.peerLost n).media.port = s.media.port ∧
    (s.peerLost n).media.retired = s.media.retired ∧
    (s.peerLost n).media.sectors = s.media.sectors ∧ (s.peerLost n).media.spares = s.media.spares ∧
    (s.peerLost n).mount = s.mount ∧ (s.peerLost n).line.discards = s.line.discards ∧
    (s.peerLost n).line.ignoring = s.line.ignoring ∧
    (s.peerLost n).line.replacement = s.line.replacement ∧ (s.peerLost n).writes = s.writes ∧
    (s.peerLost n).client.outcome = s.client.outcome ∧ (s.peerLost n).client.tag = s.client.tag ∧
    (s.peerLost n).pending = s.pending := by
  unfold State.peerLost
  simp

@[simp] theorem State.isolateProposalAt_keeps (i : Fin 8) :
    (s.isolateProposalAt i).control = s.control ∧ (s.isolateProposalAt i).member = s.member ∧
    (s.isolateProposalAt i).store = s.store ∧ (s.isolateProposalAt i).media = s.media ∧
    (s.isolateProposalAt i).mount = s.mount ∧
    (s.isolateProposalAt i).line.discards = s.line.discards ∧
    (s.isolateProposalAt i).line.ignoring = s.line.ignoring ∧
    (s.isolateProposalAt i).line.replacement = s.line.replacement ∧
    (s.isolateProposalAt i).reads = s.reads ∧ (s.isolateProposalAt i).repair.list = s.repair.list ∧
    (s.isolateProposalAt i).client.outcome = s.client.outcome ∧
    (s.isolateProposalAt i).client.tag = s.client.tag ∧
    (s.isolateProposalAt i).client.transaction = s.client.transaction ∧
    (s.isolateProposalAt i).client.events = s.client.events ∧
    (s.isolateProposalAt i).client.dropped = s.client.dropped ∧
    (s.isolateProposalAt i).pending = s.pending := by
  unfold State.isolateProposalAt
  simp

@[simp] theorem State.noticeIsolated_keeps :
    s.noticeIsolated.control = s.control ∧ s.noticeIsolated.member = s.member ∧
    s.noticeIsolated.store = s.store ∧ s.noticeIsolated.media.port = s.media.port ∧
    s.noticeIsolated.media.retired = s.media.retired ∧
    s.noticeIsolated.media.sectors = s.media.sectors ∧
    s.noticeIsolated.media.spares = s.media.spares ∧ s.noticeIsolated.mount = s.mount ∧
    s.noticeIsolated.line.discards = s.line.discards ∧
    s.noticeIsolated.line.ignoring = s.line.ignoring ∧
    s.noticeIsolated.line.replacement = s.line.replacement ∧
    s.noticeIsolated.repair.list = s.repair.list ∧
    s.noticeIsolated.client.outcome = s.client.outcome ∧
    s.noticeIsolated.client.tag = s.client.tag ∧
    s.noticeIsolated.client.transaction = s.client.transaction ∧
    s.noticeIsolated.client.events = s.client.events ∧
    s.noticeIsolated.client.dropped = s.client.dropped ∧ s.noticeIsolated.pending = s.pending := by
  have h := foldl_keeps (fun s : State =>
    (s.control, s.member, s.store, s.media.port, s.media.retired, s.media.sectors, s.media.spares,
    s.mount, s.line.discards, s.line.ignoring, s.line.replacement, s.repair.list, s.client.outcome, s.client.tag,
    s.client.transaction, s.client.events, s.client.dropped, s.pending)) State.isolateProposalAt
    (fun s i => by simp) (List.finRange 8) s
  simp only [Prod.mk.injEq] at h
  simpa [State.noticeIsolated] using h

@[simp] theorem State.noticeListening_keeps :
    s.noticeListening.control = s.control ∧ s.noticeListening.member = s.member ∧
    s.noticeListening.store = s.store ∧ s.noticeListening.media.port = s.media.port ∧
    s.noticeListening.media.retired = s.media.retired ∧
    s.noticeListening.media.sectors = s.media.sectors ∧
    s.noticeListening.media.spares = s.media.spares ∧ s.noticeListening.mount = s.mount ∧
    s.noticeListening.line.discards = s.line.discards ∧
    s.noticeListening.line.ignoring = s.line.ignoring ∧
    s.noticeListening.line.replacement = s.line.replacement ∧ s.noticeListening.writes = s.writes ∧
    s.noticeListening.reads = s.reads ∧ s.noticeListening.repair.list = s.repair.list ∧
    s.noticeListening.client = s.client ∧ s.noticeListening.pending = s.pending := by
  unfold State.noticeListening
  simp

@[simp] theorem State.notice_keeps (p : RunPhase) :
    (s.notice p).control = s.control ∧ (s.notice p).member = s.member ∧
    (s.notice p).store = s.store ∧ (s.notice p).media.port = s.media.port ∧
    (s.notice p).media.retired = s.media.retired ∧ (s.notice p).media.sectors = s.media.sectors ∧
    (s.notice p).media.spares = s.media.spares ∧ (s.notice p).mount = s.mount ∧
    (s.notice p).line.discards = s.line.discards ∧
    (s.notice p).line.ignoring = s.line.ignoring ∧
    (s.notice p).line.replacement = s.line.replacement ∧ (s.notice p).repair.list = s.repair.list ∧
    (s.notice p).client.outcome = s.client.outcome ∧ (s.notice p).client.tag = s.client.tag ∧
    (s.notice p).client.transaction = s.client.transaction ∧
    (s.notice p).client.events = s.client.events ∧ (s.notice p).client.dropped = s.client.dropped ∧
    (s.notice p).pending = s.pending := by
  unfold State.notice
  (repeat' split) <;> simp

@[simp] theorem State.showOwn_keeps (p : RunPhase) :
    (s.showOwn p).control = s.control ∧ (s.showOwn p).member.phase = s.member.phase ∧
    (s.showOwn p).member.tick = s.member.tick ∧
    (s.showOwn p).member.faultReason = s.member.faultReason ∧
    (s.showOwn p).member.heartbeatTimer = s.member.heartbeatTimer ∧
    (s.showOwn p).member.heartbeatDue = s.member.heartbeatDue ∧
    (s.showOwn p).member.listenWindow = s.member.listenWindow ∧
    (s.showOwn p).member.origin = s.member.origin ∧ (s.showOwn p).store = s.store ∧
    (s.showOwn p).media = s.media ∧ (s.showOwn p).mount = s.mount ∧ (s.showOwn p).line = s.line ∧
    (s.showOwn p).writes = s.writes ∧ (s.showOwn p).reads = s.reads ∧
    (s.showOwn p).repair = s.repair ∧ (s.showOwn p).client = s.client ∧
    (s.showOwn p).pending = s.pending := by
  unfold State.showOwn
  dsimp only
  simp

@[simp] theorem State.enterPhase_keeps (p : RunPhase) :
    (s.enterPhase p).control = s.control ∧ (s.enterPhase p).member.tick = s.member.tick ∧
    (s.enterPhase p).member.faultReason = s.member.faultReason ∧
    (s.enterPhase p).member.heartbeatTimer = s.member.heartbeatTimer ∧
    (s.enterPhase p).member.heartbeatDue = s.member.heartbeatDue ∧
    (s.enterPhase p).member.listenWindow = s.member.listenWindow ∧
    (s.enterPhase p).member.origin = s.member.origin ∧ (s.enterPhase p).store = s.store ∧
    (s.enterPhase p).media.port = s.media.port ∧ (s.enterPhase p).media.retired = s.media.retired ∧
    (s.enterPhase p).media.sectors = s.media.sectors ∧
    (s.enterPhase p).media.spares = s.media.spares ∧ (s.enterPhase p).mount = s.mount ∧
    (s.enterPhase p).line.discards = s.line.discards ∧
    (s.enterPhase p).line.ignoring = s.line.ignoring ∧
    (s.enterPhase p).line.replacement = s.line.replacement ∧
    (s.enterPhase p).repair.list = s.repair.list ∧
    (s.enterPhase p).client.outcome = s.client.outcome ∧
    (s.enterPhase p).client.tag = s.client.tag ∧ (s.enterPhase p).pending = s.pending := by
  unfold State.enterPhase
  simp

@[simp] theorem State.applyJoin_keeps (o : CatchUpOrigin) :
    (s.applyJoin o).control = s.control ∧ (s.applyJoin o).member.tick = s.member.tick ∧
    (s.applyJoin o).member.faultReason = s.member.faultReason ∧
    (s.applyJoin o).member.heartbeatTimer = s.member.heartbeatTimer ∧
    (s.applyJoin o).member.heartbeatDue = s.member.heartbeatDue ∧
    (s.applyJoin o).member.listenWindow = s.member.listenWindow ∧ (s.applyJoin o).store = s.store ∧
    (s.applyJoin o).media.port = s.media.port ∧ (s.applyJoin o).media.retired = s.media.retired ∧
    (s.applyJoin o).media.sectors = s.media.sectors ∧
    (s.applyJoin o).media.spares = s.media.spares ∧ (s.applyJoin o).mount = s.mount ∧
    (s.applyJoin o).line.discards = s.line.discards ∧
    (s.applyJoin o).line.ignoring = s.line.ignoring ∧
    (s.applyJoin o).line.replacement = s.line.replacement ∧
    (s.applyJoin o).repair.list = s.repair.list ∧
    (s.applyJoin o).client.outcome = s.client.outcome ∧ (s.applyJoin o).client.tag = s.client.tag ∧
    (s.applyJoin o).pending = s.pending := by
  unfold State.applyJoin
  (repeat' split) <;> simp

@[simp] theorem State.abandonCatchUp_keeps :
    s.abandonCatchUp.control = s.control ∧ s.abandonCatchUp.member.tick = s.member.tick ∧
    s.abandonCatchUp.member.faultReason = s.member.faultReason ∧
    s.abandonCatchUp.member.heartbeatTimer = s.member.heartbeatTimer ∧
    s.abandonCatchUp.member.heartbeatDue = s.member.heartbeatDue ∧
    s.abandonCatchUp.member.listenWindow = s.member.listenWindow ∧
    s.abandonCatchUp.store = s.store ∧ s.abandonCatchUp.media.port = s.media.port ∧
    s.abandonCatchUp.media.retired = s.media.retired ∧
    s.abandonCatchUp.media.sectors = s.media.sectors ∧
    s.abandonCatchUp.media.spares = s.media.spares ∧ s.abandonCatchUp.mount = s.mount ∧
    s.abandonCatchUp.line.discards = s.line.discards ∧
    s.abandonCatchUp.line.ignoring = s.line.ignoring ∧
    s.abandonCatchUp.line.replacement = s.line.replacement ∧
    s.abandonCatchUp.repair.list = s.repair.list ∧
    s.abandonCatchUp.client.outcome = s.client.outcome ∧
    s.abandonCatchUp.client.tag = s.client.tag ∧ s.abandonCatchUp.pending = s.pending := by
  unfold State.abandonCatchUp
  dsimp only
  (repeat' split) <;> simp

@[simp] theorem State.completeCatchUp_keeps :
    s.completeCatchUp.control = s.control ∧ s.completeCatchUp.member.tick = s.member.tick ∧
    s.completeCatchUp.member.faultReason = s.member.faultReason ∧
    s.completeCatchUp.member.heartbeatTimer = s.member.heartbeatTimer ∧
    s.completeCatchUp.member.heartbeatDue = s.member.heartbeatDue ∧
    s.completeCatchUp.member.listenWindow = s.member.listenWindow ∧
    s.completeCatchUp.store = s.store ∧ s.completeCatchUp.media.port = s.media.port ∧
    s.completeCatchUp.media.retired = s.media.retired ∧
    s.completeCatchUp.media.sectors = s.media.sectors ∧
    s.completeCatchUp.media.spares = s.media.spares ∧ s.completeCatchUp.mount = s.mount ∧
    s.completeCatchUp.line.discards = s.line.discards ∧
    s.completeCatchUp.line.ignoring = s.line.ignoring ∧
    s.completeCatchUp.line.replacement = s.line.replacement ∧
    s.completeCatchUp.repair.list = s.repair.list ∧
    s.completeCatchUp.client.outcome = s.client.outcome ∧
    s.completeCatchUp.client.tag = s.client.tag ∧ s.completeCatchUp.pending = s.pending := by
  unfold State.completeCatchUp
  (repeat' split) <;> simp

@[simp] theorem State.phaseTest_keeps :
    s.phaseTest.control = s.control ∧ s.phaseTest.member.tick = s.member.tick ∧
    s.phaseTest.member.faultReason = s.member.faultReason ∧
    s.phaseTest.member.heartbeatTimer = s.member.heartbeatTimer ∧
    s.phaseTest.member.heartbeatDue = s.member.heartbeatDue ∧
    s.phaseTest.member.listenWindow = s.member.listenWindow ∧ s.phaseTest.store = s.store ∧
    s.phaseTest.media.port = s.media.port ∧ s.phaseTest.media.retired = s.media.retired ∧
    s.phaseTest.media.sectors = s.media.sectors ∧ s.phaseTest.media.spares = s.media.spares ∧
    s.phaseTest.mount = s.mount ∧ s.phaseTest.line.discards = s.line.discards ∧
    s.phaseTest.line.ignoring = s.line.ignoring ∧
    s.phaseTest.line.replacement = s.line.replacement ∧ s.phaseTest.repair.list = s.repair.list ∧
    s.phaseTest.client.outcome = s.client.outcome ∧ s.phaseTest.client.tag = s.client.tag ∧
    s.phaseTest.pending = s.pending := by
  unfold State.phaseTest
  (repeat' split) <;> simp

@[simp] theorem State.heard_keeps (n : StationNo) :
    (s.heard n).control = s.control ∧ (s.heard n).member.tick = s.member.tick ∧
    (s.heard n).member.faultReason = s.member.faultReason ∧
    (s.heard n).member.heartbeatTimer = s.member.heartbeatTimer ∧
    (s.heard n).member.heartbeatDue = s.member.heartbeatDue ∧
    (s.heard n).member.listenWindow = s.member.listenWindow ∧ (s.heard n).store = s.store ∧
    (s.heard n).media.port = s.media.port ∧ (s.heard n).media.retired = s.media.retired ∧
    (s.heard n).media.sectors = s.media.sectors ∧ (s.heard n).media.spares = s.media.spares ∧
    (s.heard n).mount = s.mount ∧ (s.heard n).line.discards = s.line.discards ∧
    (s.heard n).line.ignoring = s.line.ignoring ∧
    (s.heard n).line.replacement = s.line.replacement ∧ (s.heard n).repair.list = s.repair.list ∧
    (s.heard n).client.outcome = s.client.outcome ∧ (s.heard n).client.tag = s.client.tag ∧
    (s.heard n).pending = s.pending := by
  unfold State.heard
  dsimp only
  (repeat' split) <;> simp

@[simp] theorem State.heartbeatMatches_keeps (n : StationNo) (p : RunPhase) (c : BitVec 32) :
    (s.heartbeatMatches n p c).control = s.control ∧
    (s.heartbeatMatches n p c).member.tick = s.member.tick ∧
    (s.heartbeatMatches n p c).member.faultReason = s.member.faultReason ∧
    (s.heartbeatMatches n p c).member.heartbeatTimer = s.member.heartbeatTimer ∧
    (s.heartbeatMatches n p c).member.heartbeatDue = s.member.heartbeatDue ∧
    (s.heartbeatMatches n p c).member.listenWindow = s.member.listenWindow ∧
    (s.heartbeatMatches n p c).store.map = s.store.map ∧
    (s.heartbeatMatches n p c).store.staging = s.store.staging ∧
    (s.heartbeatMatches n p c).media.port = s.media.port ∧
    (s.heartbeatMatches n p c).media.retired = s.media.retired ∧
    (s.heartbeatMatches n p c).media.sectors = s.media.sectors ∧
    (s.heartbeatMatches n p c).media.spares = s.media.spares ∧
    (s.heartbeatMatches n p c).mount = s.mount ∧
    (s.heartbeatMatches n p c).line.discards = s.line.discards ∧
    (s.heartbeatMatches n p c).line.ignoring = s.line.ignoring ∧
    (s.heartbeatMatches n p c).line.replacement = s.line.replacement ∧
    (s.heartbeatMatches n p c).repair.list = s.repair.list ∧
    (s.heartbeatMatches n p c).client.outcome = s.client.outcome ∧
    (s.heartbeatMatches n p c).client.tag = s.client.tag ∧
    (s.heartbeatMatches n p c).pending = s.pending := by
  unfold State.heartbeatMatches
  dsimp only
  (repeat' split) <;> simp

@[simp] theorem State.heartbeatConflicts_keeps (n : StationNo) (r : ConflictReason) :
    (s.heartbeatConflicts n r).control = s.control ∧
    (s.heartbeatConflicts n r).member.tick = s.member.tick ∧
    (s.heartbeatConflicts n r).member.faultReason = s.member.faultReason ∧
    (s.heartbeatConflicts n r).member.heartbeatTimer = s.member.heartbeatTimer ∧
    (s.heartbeatConflicts n r).member.heartbeatDue = s.member.heartbeatDue ∧
    (s.heartbeatConflicts n r).member.listenWindow = s.member.listenWindow ∧
    (s.heartbeatConflicts n r).store = s.store ∧
    (s.heartbeatConflicts n r).media.port = s.media.port ∧
    (s.heartbeatConflicts n r).media.retired = s.media.retired ∧
    (s.heartbeatConflicts n r).media.sectors = s.media.sectors ∧
    (s.heartbeatConflicts n r).media.spares = s.media.spares ∧
    (s.heartbeatConflicts n r).mount = s.mount ∧
    (s.heartbeatConflicts n r).line.discards = s.line.discards ∧
    (s.heartbeatConflicts n r).line.ignoring = s.line.ignoring ∧
    (s.heartbeatConflicts n r).line.replacement = s.line.replacement ∧
    (s.heartbeatConflicts n r).client.outcome = s.client.outcome ∧
    (s.heartbeatConflicts n r).client.tag = s.client.tag ∧
    (s.heartbeatConflicts n r).pending = s.pending := by
  unfold State.heartbeatConflicts
  dsimp only
  (repeat' split) <;> simp

@[simp] theorem State.fallSilent_keeps (n : StationNo) :
    (s.fallSilent n).control = s.control ∧ (s.fallSilent n).member.tick = s.member.tick ∧
    (s.fallSilent n).member.faultReason = s.member.faultReason ∧
    (s.fallSilent n).member.heartbeatTimer = s.member.heartbeatTimer ∧
    (s.fallSilent n).member.heartbeatDue = s.member.heartbeatDue ∧
    (s.fallSilent n).member.listenWindow = s.member.listenWindow ∧
    (s.fallSilent n).store = s.store ∧ (s.fallSilent n).media.port = s.media.port ∧
    (s.fallSilent n).media.retired = s.media.retired ∧
    (s.fallSilent n).media.sectors = s.media.sectors ∧
    (s.fallSilent n).media.spares = s.media.spares ∧ (s.fallSilent n).mount = s.mount ∧
    (s.fallSilent n).line.discards = s.line.discards ∧
    (s.fallSilent n).line.ignoring = s.line.ignoring ∧
    (s.fallSilent n).line.replacement = s.line.replacement ∧
    (s.fallSilent n).client.outcome = s.client.outcome ∧
    (s.fallSilent n).client.tag = s.client.tag ∧ (s.fallSilent n).pending = s.pending := by
  unfold State.fallSilent
  dsimp only
  (repeat' split) <;> simp

@[simp] theorem State.repaired_keeps (b : Nat) :
    (s.repaired b).control = s.control ∧ (s.repaired b).member = s.member ∧
    (s.repaired b).store = s.store ∧ (s.repaired b).media = s.media ∧
    (s.repaired b).mount = s.mount ∧ (s.repaired b).line.discards = s.line.discards ∧
    (s.repaired b).line.ignoring = s.line.ignoring ∧
    (s.repaired b).line.replacement = s.line.replacement ∧ (s.repaired b).writes = s.writes ∧
    (s.repaired b).reads = s.reads ∧ (s.repaired b).client.outcome = s.client.outcome ∧
    (s.repaired b).client.tag = s.client.tag ∧
    (s.repaired b).client.completions = s.client.completions ∧
    (s.repaired b).pending = s.pending := by
  unfold State.repaired
  dsimp only
  (repeat' split) <;> simp

@[simp] theorem State.supersedeAt_keeps (b : Nat) (v : Version) (i : Fin 8) :
    (s.supersedeAt b v i).control = s.control ∧ (s.supersedeAt b v i).member = s.member ∧
    (s.supersedeAt b v i).store = s.store ∧ (s.supersedeAt b v i).media = s.media ∧
    (s.supersedeAt b v i).mount = s.mount ∧ (s.supersedeAt b v i).line.discards = s.line.discards ∧
    (s.supersedeAt b v i).line.ignoring = s.line.ignoring ∧
    (s.supersedeAt b v i).line.replacement = s.line.replacement ∧
    (s.supersedeAt b v i).reads = s.reads ∧ (s.supersedeAt b v i).repair.list = s.repair.list ∧
    (s.supersedeAt b v i).client.outcome = s.client.outcome ∧
    (s.supersedeAt b v i).client.tag = s.client.tag ∧
    (s.supersedeAt b v i).client.transaction = s.client.transaction ∧
    (s.supersedeAt b v i).client.events = s.client.events ∧
    (s.supersedeAt b v i).client.dropped = s.client.dropped ∧
    (s.supersedeAt b v i).pending = s.pending := by
  unfold State.supersedeAt
  dsimp only
  (repeat' split) <;> simp

@[simp] theorem State.advance_keeps (b : Nat) (v : Version) :
    (s.advance b v).control = s.control ∧ (s.advance b v).member = s.member ∧
    (s.advance b v).store = s.store ∧ (s.advance b v).media = s.media ∧
    (s.advance b v).mount = s.mount ∧ (s.advance b v).line.discards = s.line.discards ∧
    (s.advance b v).line.ignoring = s.line.ignoring ∧
    (s.advance b v).line.replacement = s.line.replacement ∧
    (s.advance b v).repair.list = s.repair.list ∧
    (s.advance b v).client.outcome = s.client.outcome ∧ (s.advance b v).client.tag = s.client.tag ∧
    (s.advance b v).client.transaction = s.client.transaction ∧
    (s.advance b v).client.events = s.client.events ∧
    (s.advance b v).client.dropped = s.client.dropped ∧ (s.advance b v).pending = s.pending := by
  have h := foldl_keeps (fun s : State =>
    (s.control, s.member, s.store, s.media, s.mount, s.line.discards, s.line.ignoring, s.line.replacement,
    s.repair.list, s.client.outcome, s.client.tag, s.client.transaction, s.client.events,
    s.client.dropped, s.pending)) (fun s i => s.supersedeAt b v i) (fun s i => by simp)
    (List.finRange 8) s
  simp only [Prod.mk.injEq] at h
  simpa [State.advance] using h

@[simp] theorem State.take_keeps (b : Nat) (v : Version) (d : Data) (src : Source) :
    (s.take b v d src).control = s.control ∧ (s.take b v d src).member = s.member ∧
    (s.take b v d src).store.clock = s.store.clock ∧ (s.take b v d src).media = s.media ∧
    (s.take b v d src).mount = s.mount ∧ (s.take b v d src).line = s.line ∧
    (s.take b v d src).writes = s.writes ∧ (s.take b v d src).reads = s.reads ∧
    (s.take b v d src).repair = s.repair ∧ (s.take b v d src).client = s.client ∧
    (s.take b v d src).pending = s.pending := by
  unfold State.take
  dsimp only
  simp

@[simp] theorem State.accept_keeps (b : Nat) (v : Version) (d : Data) (src : Source) :
    (s.accept b v d src).control = s.control ∧ (s.accept b v d src).member = s.member ∧
    (s.accept b v d src).store.clock = s.store.clock ∧
    (s.accept b v d src).media.port = s.media.port ∧
    (s.accept b v d src).media.retired = s.media.retired ∧
    (s.accept b v d src).media.sectors = s.media.sectors ∧
    (s.accept b v d src).media.spares = s.media.spares ∧ (s.accept b v d src).mount = s.mount ∧
    (s.accept b v d src).line.discards = s.line.discards ∧
    (s.accept b v d src).line.ignoring = s.line.ignoring ∧
    (s.accept b v d src).line.replacement = s.line.replacement ∧
    (s.accept b v d src).client.outcome = s.client.outcome ∧
    (s.accept b v d src).client.tag = s.client.tag ∧ (s.accept b v d src).pending = s.pending := by
  unfold State.accept
  dsimp only
  (repeat' split) <;> simp

@[simp] theorem State.requestEngine_keeps (r : Requester) (b : Nat) :
    (s.requestEngine r b).control = s.control ∧ (s.requestEngine r b).member = s.member ∧
    (s.requestEngine r b).store = s.store ∧ (s.requestEngine r b).media.port = s.media.port ∧
    (s.requestEngine r b).media.retired = s.media.retired ∧
    (s.requestEngine r b).media.sectors = s.media.sectors ∧
    (s.requestEngine r b).media.spares = s.media.spares ∧ (s.requestEngine r b).mount = s.mount ∧
    (s.requestEngine r b).line.discards = s.line.discards ∧
    (s.requestEngine r b).line.ignoring = s.line.ignoring ∧
    (s.requestEngine r b).line.replacement = s.line.replacement ∧
    (s.requestEngine r b).writes = s.writes ∧ (s.requestEngine r b).reads = s.reads ∧
    (s.requestEngine r b).repair = s.repair ∧ (s.requestEngine r b).client = s.client ∧
    (s.requestEngine r b).pending = s.pending := by
  unfold State.requestEngine
  simp

@[simp] theorem State.placeAnswer_keeps (j : ServeJob) (l : Bool) (b : Body) :
    (s.placeAnswer j l b).control = s.control ∧ (s.placeAnswer j l b).member = s.member ∧
    (s.placeAnswer j l b).store = s.store ∧ (s.placeAnswer j l b).media = s.media ∧
    (s.placeAnswer j l b).mount = s.mount ∧ (s.placeAnswer j l b).line.discards = s.line.discards ∧
    (s.placeAnswer j l b).line.ignoring = s.line.ignoring ∧
    (s.placeAnswer j l b).line.replacement = s.line.replacement ∧
    (s.placeAnswer j l b).writes = s.writes ∧ (s.placeAnswer j l b).reads = s.reads ∧
    (s.placeAnswer j l b).repair.list = s.repair.list ∧ (s.placeAnswer j l b).client = s.client ∧
    (s.placeAnswer j l b).pending = s.pending := by
  unfold State.placeAnswer
  simp

@[simp] theorem State.readForServe_keeps (j : ServeJob) (b : Nat) :
    (s.readForServe j b).control = s.control ∧ (s.readForServe j b).member = s.member ∧
    (s.readForServe j b).store = s.store ∧ (s.readForServe j b).media.port = s.media.port ∧
    (s.readForServe j b).media.retired = s.media.retired ∧
    (s.readForServe j b).media.sectors = s.media.sectors ∧
    (s.readForServe j b).media.spares = s.media.spares ∧ (s.readForServe j b).mount = s.mount ∧
    (s.readForServe j b).line.discards = s.line.discards ∧
    (s.readForServe j b).line.ignoring = s.line.ignoring ∧
    (s.readForServe j b).line.replacement = s.line.replacement ∧
    (s.readForServe j b).writes = s.writes ∧ (s.readForServe j b).reads = s.reads ∧
    (s.readForServe j b).repair.list = s.repair.list ∧ (s.readForServe j b).client = s.client ∧
    (s.readForServe j b).pending = s.pending := by
  unfold State.readForServe
  simp

@[simp] theorem State.answerNotHeld_keeps (j : ServeJob) (b : BitVec 16) :
    (s.answerNotHeld j b).control = s.control ∧ (s.answerNotHeld j b).member = s.member ∧
    (s.answerNotHeld j b).store = s.store ∧ (s.answerNotHeld j b).media = s.media ∧
    (s.answerNotHeld j b).mount = s.mount ∧ (s.answerNotHeld j b).line.discards = s.line.discards ∧
    (s.answerNotHeld j b).line.ignoring = s.line.ignoring ∧
    (s.answerNotHeld j b).line.replacement = s.line.replacement ∧
    (s.answerNotHeld j b).writes = s.writes ∧ (s.answerNotHeld j b).reads = s.reads ∧
    (s.answerNotHeld j b).repair.list = s.repair.list ∧ (s.answerNotHeld j b).client = s.client ∧
    (s.answerNotHeld j b).pending = s.pending := by
  unfold State.answerNotHeld
  simp

@[simp] theorem State.serveFetch_keeps (j : ServeJob) (b : BitVec 16) :
    (s.serveFetch j b).control = s.control ∧ (s.serveFetch j b).member = s.member ∧
    (s.serveFetch j b).store = s.store ∧ (s.serveFetch j b).media.port = s.media.port ∧
    (s.serveFetch j b).media.retired = s.media.retired ∧
    (s.serveFetch j b).media.sectors = s.media.sectors ∧
    (s.serveFetch j b).media.spares = s.media.spares ∧ (s.serveFetch j b).mount = s.mount ∧
    (s.serveFetch j b).line.discards = s.line.discards ∧
    (s.serveFetch j b).line.ignoring = s.line.ignoring ∧
    (s.serveFetch j b).line.replacement = s.line.replacement ∧
    (s.serveFetch j b).writes = s.writes ∧ (s.serveFetch j b).reads = s.reads ∧
    (s.serveFetch j b).repair.list = s.repair.list ∧ (s.serveFetch j b).client = s.client ∧
    (s.serveFetch j b).pending = s.pending := by
  unfold State.serveFetch
  dsimp only
  (repeat' split) <;> simp

@[simp] theorem State.serveDigest_keeps (j : ServeJob) (r : Fin 64) (vs : Vector Version 64) :
    (s.serveDigest j r vs).control = s.control ∧ (s.serveDigest j r vs).member = s.member ∧
    (s.serveDigest j r vs).store = s.store ∧ (s.serveDigest j r vs).media.port = s.media.port ∧
    (s.serveDigest j r vs).media.retired = s.media.retired ∧
    (s.serveDigest j r vs).media.sectors = s.media.sectors ∧
    (s.serveDigest j r vs).media.spares = s.media.spares ∧ (s.serveDigest j r vs).mount = s.mount ∧
    (s.serveDigest j r vs).line.discards = s.line.discards ∧
    (s.serveDigest j r vs).line.ignoring = s.line.ignoring ∧
    (s.serveDigest j r vs).line.replacement = s.line.replacement ∧
    (s.serveDigest j r vs).writes = s.writes ∧ (s.serveDigest j r vs).reads = s.reads ∧
    (s.serveDigest j r vs).repair.list = s.repair.list ∧ (s.serveDigest j r vs).client = s.client ∧
    (s.serveDigest j r vs).pending = s.pending := by
  unfold State.serveDigest
  dsimp only
  (repeat' split) <;> simp

theorem State.serveStep_keeps {s t : State} (h : s.serveStep = some t) :
    t.control = s.control ∧ t.member = s.member ∧ t.store = s.store ∧ t.media.port = s.media.port ∧
    t.media.retired = s.media.retired ∧ t.media.sectors = s.media.sectors ∧
    t.media.spares = s.media.spares ∧ t.mount = s.mount ∧ t.line.discards = s.line.discards ∧
    t.line.ignoring = s.line.ignoring ∧
    t.line.replacement = s.line.replacement ∧ t.writes = s.writes ∧ t.reads = s.reads ∧
    t.repair.list = s.repair.list ∧ t.client = s.client ∧ t.pending = s.pending := by
  unfold State.serveStep at h
  repeat' split at h
  all_goals first
    | (cases h; done)
    | (obtain rfl := Option.some.inj h; simp)

@[simp] theorem State.reportServe_keeps (r : ReadRequest) (m : MediaReport) :
    (s.reportServe r m).control = s.control ∧ (s.reportServe r m).member = s.member ∧
    (s.reportServe r m).store = s.store ∧ (s.reportServe r m).media = s.media ∧
    (s.reportServe r m).mount = s.mount ∧ (s.reportServe r m).line.discards = s.line.discards ∧
    (s.reportServe r m).line.ignoring = s.line.ignoring ∧
    (s.reportServe r m).line.replacement = s.line.replacement ∧
    (s.reportServe r m).writes = s.writes ∧ (s.reportServe r m).reads = s.reads ∧
    (s.reportServe r m).repair.list = s.repair.list ∧ (s.reportServe r m).client = s.client ∧
    (s.reportServe r m).pending = s.pending := by
  unfold State.reportServe
  dsimp only
  (repeat' split) <;> simp

@[simp] theorem State.placePush_keeps (b : Nat) (v : Version) (d : Data) :
    (s.placePush b v d).control = s.control ∧ (s.placePush b v d).member = s.member ∧
    (s.placePush b v d).store = s.store ∧ (s.placePush b v d).media = s.media ∧
    (s.placePush b v d).mount = s.mount ∧ (s.placePush b v d).line.discards = s.line.discards ∧
    (s.placePush b v d).line.ignoring = s.line.ignoring ∧
    (s.placePush b v d).line.replacement = s.line.replacement ∧
    (s.placePush b v d).writes = s.writes ∧ (s.placePush b v d).reads = s.reads ∧
    (s.placePush b v d).repair.list = s.repair.list ∧ (s.placePush b v d).client = s.client ∧
    (s.placePush b v d).pending = s.pending := by
  unfold State.placePush
  dsimp only
  (repeat' split) <;> simp

@[simp] theorem State.startPush_keeps (b : Nat) :
    (s.startPush b).control = s.control ∧ (s.startPush b).member = s.member ∧
    (s.startPush b).store = s.store ∧ (s.startPush b).media.port = s.media.port ∧
    (s.startPush b).media.retired = s.media.retired ∧
    (s.startPush b).media.sectors = s.media.sectors ∧
    (s.startPush b).media.spares = s.media.spares ∧ (s.startPush b).mount = s.mount ∧
    (s.startPush b).line.discards = s.line.discards ∧
    (s.startPush b).line.ignoring = s.line.ignoring ∧
    (s.startPush b).line.replacement = s.line.replacement ∧ (s.startPush b).writes = s.writes ∧
    (s.startPush b).reads = s.reads ∧ (s.startPush b).repair.list = s.repair.list ∧
    (s.startPush b).client = s.client ∧ (s.startPush b).pending = s.pending := by
  unfold State.startPush
  dsimp only
  (repeat' split) <;> simp

@[simp] theorem State.rangeDone_keeps :
    s.rangeDone.control = s.control ∧ s.rangeDone.member.tick = s.member.tick ∧
    s.rangeDone.member.faultReason = s.member.faultReason ∧
    s.rangeDone.member.heartbeatTimer = s.member.heartbeatTimer ∧
    s.rangeDone.member.heartbeatDue = s.member.heartbeatDue ∧
    s.rangeDone.member.listenWindow = s.member.listenWindow ∧ s.rangeDone.store = s.store ∧
    s.rangeDone.media.port = s.media.port ∧ s.rangeDone.media.retired = s.media.retired ∧
    s.rangeDone.media.sectors = s.media.sectors ∧ s.rangeDone.media.spares = s.media.spares ∧
    s.rangeDone.mount = s.mount ∧ s.rangeDone.line.discards = s.line.discards ∧
    s.rangeDone.line.ignoring = s.line.ignoring ∧
    s.rangeDone.line.replacement = s.line.replacement ∧ s.rangeDone.repair.list = s.repair.list ∧
    s.rangeDone.client.outcome = s.client.outcome ∧ s.rangeDone.client.tag = s.client.tag ∧
    s.rangeDone.pending = s.pending := by
  unfold State.rangeDone
  dsimp only
  (repeat' split) <;> simp

theorem State.cursorStep_keeps {s t : State} (h : s.cursorStep = some t) :
    t.control = s.control ∧ t.member.tick = s.member.tick ∧
    t.member.faultReason = s.member.faultReason ∧
    t.member.heartbeatTimer = s.member.heartbeatTimer ∧
    t.member.heartbeatDue = s.member.heartbeatDue ∧ t.member.listenWindow = s.member.listenWindow ∧
    t.store = s.store ∧ t.media.port = s.media.port ∧ t.media.retired = s.media.retired ∧
    t.media.sectors = s.media.sectors ∧ t.media.spares = s.media.spares ∧ t.mount = s.mount ∧
    t.line.discards = s.line.discards ∧
    t.line.ignoring = s.line.ignoring ∧ t.line.replacement = s.line.replacement ∧
    t.repair.list = s.repair.list ∧ t.client.outcome = s.client.outcome ∧
    t.client.tag = s.client.tag ∧ t.pending = s.pending := by
  unfold State.cursorStep at h
  dsimp only at h
  repeat' split at h
  all_goals first
    | (cases h; done)
    | (obtain rfl := Option.some.inj h; simp)

@[simp] theorem State.reportCursor_keeps (r : ReadRequest) (m : MediaReport) :
    (s.reportCursor r m).control = s.control ∧ (s.reportCursor r m).member = s.member ∧
    (s.reportCursor r m).store = s.store ∧ (s.reportCursor r m).media = s.media ∧
    (s.reportCursor r m).mount = s.mount ∧ (s.reportCursor r m).line.discards = s.line.discards ∧
    (s.reportCursor r m).line.ignoring = s.line.ignoring ∧
    (s.reportCursor r m).line.replacement = s.line.replacement ∧
    (s.reportCursor r m).writes = s.writes ∧ (s.reportCursor r m).reads = s.reads ∧
    (s.reportCursor r m).repair.list = s.repair.list ∧ (s.reportCursor r m).client = s.client ∧
    (s.reportCursor r m).pending = s.pending := by
  unfold State.reportCursor
  (repeat' split) <;> simp

theorem State.fetchStep_keeps {s t : State} (h : s.fetchStep = some t) :
    t.control = s.control ∧ t.member = s.member ∧ t.store = s.store ∧ t.media = s.media ∧
    t.mount = s.mount ∧ t.line.discards = s.line.discards ∧
    t.line.ignoring = s.line.ignoring ∧
    t.line.replacement = s.line.replacement ∧ t.writes = s.writes ∧ t.reads = s.reads ∧
    t.client.outcome = s.client.outcome ∧ t.client.tag = s.client.tag ∧
    t.client.completions = s.client.completions ∧ t.pending = s.pending := by
  unfold State.fetchStep at h
  repeat' split at h
  all_goals first
    | (cases h; done)
    | (obtain rfl := Option.some.inj h; simp)

@[simp] theorem State.report_keeps (r : ReadRequest) (m : MediaReport) :
    (s.report r m).control = s.control ∧ (s.report r m).member = s.member ∧
    (s.report r m).store = s.store ∧ (s.report r m).media.port = s.media.port ∧
    (s.report r m).media.retired = s.media.retired ∧
    (s.report r m).media.sectors = s.media.sectors ∧ (s.report r m).media.spares = s.media.spares ∧
    (s.report r m).mount = s.mount ∧ (s.report r m).line.discards = s.line.discards ∧
    (s.report r m).line.ignoring = s.line.ignoring ∧
    (s.report r m).line.replacement = s.line.replacement ∧ (s.report r m).writes = s.writes ∧
    (s.report r m).repair.list = s.repair.list ∧ (s.report r m).client.outcome = s.client.outcome ∧
    (s.report r m).client.tag = s.client.tag ∧
    (s.report r m).client.transaction = s.client.transaction ∧
    (s.report r m).client.events = s.client.events ∧
    (s.report r m).client.dropped = s.client.dropped ∧ (s.report r m).pending = s.pending := by
  unfold State.report
  (repeat' split) <;> simp

@[simp] theorem State.programCopy_keeps (op : WriteOp) (n : Nat) (p : Option Nat) :
    (s.programCopy op n p).control = s.control ∧ (s.programCopy op n p).member = s.member ∧
    (s.programCopy op n p).store = s.store ∧
    (s.programCopy op n p).media.retired = s.media.retired ∧
    (s.programCopy op n p).media.spares = s.media.spares ∧
    (s.programCopy op n p).mount = s.mount ∧ (s.programCopy op n p).line = s.line ∧
    (s.programCopy op n p).writes = s.writes ∧ (s.programCopy op n p).reads = s.reads ∧
    (s.programCopy op n p).repair = s.repair ∧ (s.programCopy op n p).client = s.client ∧
    (s.programCopy op n p).pending = s.pending := by
  unfold State.programCopy
  simp [State.usePort_media]

@[simp] theorem State.endWrite_keeps (op : WriteOp) (o : Option Nat) (w : Bool) (x : Option Nat) :
    (s.endWrite op o w x).control = s.control ∧ (s.endWrite op o w x).member = s.member ∧
    (s.endWrite op o w x).store = s.store ∧ (s.endWrite op o w x).media.retired = s.media.retired ∧
    (s.endWrite op o w x).media.spares = s.media.spares ∧ (s.endWrite op o w x).mount = s.mount ∧
    (s.endWrite op o w x).line = s.line ∧ (s.endWrite op o w x).writes = s.writes ∧
    (s.endWrite op o w x).reads = s.reads ∧ (s.endWrite op o w x).repair = s.repair ∧
    (s.endWrite op o w x).client = s.client ∧ (s.endWrite op o w x).pending = s.pending := by
  unfold State.endWrite
  simp [State.usePort_media]

@[simp] theorem State.takeSpare_keeps (n : Nat) :
    (s.takeSpare n).control = s.control ∧ (s.takeSpare n).member = s.member ∧
    (s.takeSpare n).store = s.store ∧ (s.takeSpare n).media.port = s.media.port ∧
    (s.takeSpare n).media.retired = s.media.retired ∧
    (s.takeSpare n).media.sectors = s.media.sectors ∧ (s.takeSpare n).mount = s.mount ∧
    (s.takeSpare n).line = s.line ∧ (s.takeSpare n).writes = s.writes ∧
    (s.takeSpare n).reads = s.reads ∧ (s.takeSpare n).repair = s.repair ∧
    (s.takeSpare n).client.outcome = s.client.outcome ∧ (s.takeSpare n).client.tag = s.client.tag ∧
    (s.takeSpare n).client.completions = s.client.completions ∧
    (s.takeSpare n).pending = s.pending := by
  unfold State.takeSpare
  dsimp only
  (repeat' split) <;> simp

@[simp] theorem State.noSpare_keeps (b : Nat) :
    (s.noSpare b).control = s.control ∧ (s.noSpare b).member = s.member ∧
    (s.noSpare b).store = s.store ∧ (s.noSpare b).media.port = s.media.port ∧
    (s.noSpare b).media.retired = s.media.retired ∧ (s.noSpare b).media.sectors = s.media.sectors ∧
    (s.noSpare b).media.spares = s.media.spares ∧ (s.noSpare b).mount = s.mount ∧
    (s.noSpare b).line = s.line ∧ (s.noSpare b).writes = s.writes ∧ (s.noSpare b).reads = s.reads ∧
    (s.noSpare b).repair = s.repair ∧ (s.noSpare b).client.outcome = s.client.outcome ∧
    (s.noSpare b).client.tag = s.client.tag ∧
    (s.noSpare b).client.completions = s.client.completions ∧
    (s.noSpare b).pending = s.pending := by
  unfold State.noSpare
  (repeat' split) <;> simp

@[simp] theorem State.relocate_keeps (op : WriteOp) (p : Option Nat) (w : Bool) :
    (s.relocate op p w).control = s.control ∧ (s.relocate op p w).member = s.member ∧
    (s.relocate op p w).store = s.store ∧ (s.relocate op p w).media.retired = s.media.retired ∧
    (s.relocate op p w).mount = s.mount ∧ (s.relocate op p w).line = s.line ∧
    (s.relocate op p w).writes = s.writes ∧ (s.relocate op p w).reads = s.reads ∧
    (s.relocate op p w).repair = s.repair ∧ (s.relocate op p w).client.outcome = s.client.outcome ∧
    (s.relocate op p w).client.tag = s.client.tag ∧
    (s.relocate op p w).client.completions = s.client.completions ∧
    (s.relocate op p w).pending = s.pending := by
  unfold State.relocate
  (repeat' split) <;> simp

/-! A relocation leaves what waits at the arbiter as it was. -/

@[simp] theorem State.relocate_keeps_media (op : WriteOp) (p : Option Nat) (w : Bool) :
    (s.relocate op p w).media.clientRequests = s.media.clientRequests ∧
    (s.relocate op p w).media.engineRequests = s.media.engineRequests ∧
    (s.relocate op p w).media.passedOver = s.media.passedOver ∧ (s.relocate op p w).media.scrub = s.media.scrub := by
  unfold State.relocate State.takeSpare State.noSpare State.programCopy State.endWrite
  dsimp only
  (repeat' split) <;> simp [State.usePort_media]

@[simp] theorem State.callRelocation_keeps (op : WriteOp) (o : Option Nat) (n : Nat) (w : Bool) :
    (s.callRelocation op o n w).control = s.control ∧
    (s.callRelocation op o n w).member = s.member ∧ (s.callRelocation op o n w).store = s.store ∧
    (s.callRelocation op o n w).media.retired = s.media.retired ∧
    (s.callRelocation op o n w).mount = s.mount ∧ (s.callRelocation op o n w).line = s.line ∧
    (s.callRelocation op o n w).writes = s.writes ∧ (s.callRelocation op o n w).reads = s.reads ∧
    (s.callRelocation op o n w).repair = s.repair ∧
    (s.callRelocation op o n w).client.outcome = s.client.outcome ∧
    (s.callRelocation op o n w).client.tag = s.client.tag ∧
    (s.callRelocation op o n w).client.completions = s.client.completions ∧
    (s.callRelocation op o n w).pending = s.pending := by
  unfold State.callRelocation
  split <;> simp

@[simp] theorem State.afterMark_keeps :
    s.afterMark.control = s.control ∧ s.afterMark.member = s.member ∧ s.afterMark.store = s.store ∧
    s.afterMark.media.retired = s.media.retired ∧ s.afterMark.mount = s.mount ∧
    s.afterMark.line = s.line ∧ s.afterMark.writes = s.writes ∧ s.afterMark.reads = s.reads ∧
    s.afterMark.repair = s.repair ∧ s.afterMark.client.outcome = s.client.outcome ∧
    s.afterMark.client.tag = s.client.tag ∧ s.afterMark.client.completions = s.client.completions ∧
    s.afterMark.pending = s.pending := by
  unfold State.afterMark
  (repeat' split) <;> simp

@[simp] theorem State.answerStep_keeps :
    s.answerStep.control = s.control ∧ s.answerStep.member = s.member ∧
    s.answerStep.store = s.store ∧ s.answerStep.media.retired = s.media.retired ∧
    s.answerStep.mount = s.mount ∧ s.answerStep.line = s.line ∧ s.answerStep.writes = s.writes ∧
    s.answerStep.reads = s.reads ∧ s.answerStep.repair = s.repair ∧
    s.answerStep.client.outcome = s.client.outcome ∧ s.answerStep.client.tag = s.client.tag ∧
    s.answerStep.client.completions = s.client.completions ∧ s.answerStep.pending = s.pending := by
  unfold State.answerStep
  split <;> simp [MediaController.run]

@[simp] theorem State.answerSteps_keeps (k : Nat) :
    (s.answerSteps k).control = s.control ∧ (s.answerSteps k).member = s.member ∧
    (s.answerSteps k).store = s.store ∧ (s.answerSteps k).media.retired = s.media.retired ∧
    (s.answerSteps k).mount = s.mount ∧ (s.answerSteps k).line = s.line ∧
    (s.answerSteps k).writes = s.writes ∧ (s.answerSteps k).reads = s.reads ∧
    (s.answerSteps k).repair = s.repair ∧ (s.answerSteps k).client.outcome = s.client.outcome ∧
    (s.answerSteps k).client.tag = s.client.tag ∧
    (s.answerSteps k).client.completions = s.client.completions ∧
    (s.answerSteps k).pending = s.pending := by
  induction k generalizing s with
  | zero => simp [State.answerSteps]
  | succ k ih => simp [State.answerSteps, ih]


@[simp] theorem State.answerStep_keeps_media :
    s.answerStep.media.clientRequests = s.media.clientRequests ∧
    s.answerStep.media.engineRequests = s.media.engineRequests ∧
    s.answerStep.media.passedOver = s.media.passedOver ∧ s.answerStep.media.scrub = s.media.scrub := by
  unfold State.answerStep State.afterMark
  (repeat' split) <;> simp [MediaController.run]

@[simp] theorem State.answerSteps_keeps_media (k : Nat) :
    (s.answerSteps k).media.clientRequests = s.media.clientRequests ∧
    (s.answerSteps k).media.engineRequests = s.media.engineRequests ∧
    (s.answerSteps k).media.passedOver = s.media.passedOver ∧ (s.answerSteps k).media.scrub = s.media.scrub := by
  induction k generalizing s with
  | zero => simp [State.answerSteps]
  | succ k ih => simp [State.answerSteps, ih]

/-- With further steps to come, an answer starts the next. -/
theorem State.answerStep_next {x y : MediaStep} {l : List MediaStep}
    (h : s.media.steps = x :: y :: l) :
    s.answerStep = s.onMedia fun m => m.run (y :: l) := by
  unfold State.answerStep
  rw [h]

/-- The answer of the last step of anything but a write whose relocation waits for its mark changes
nothing until the operation's command. -/
theorem State.answerStep_last (h : s.media.steps.length ≤ 1)
    (hp : ∀ op n written, s.media.port = some (.write op) → op.stage ≠ .retiring n written) :
    s.answerStep = s := by
  unfold State.answerStep State.afterMark
  repeat' split
  all_goals first
    | rfl
    | exact absurd ‹_› (hp _ _ _ ‹_›)
    | (rename_i hs; simp [hs] at h)

/-- The answer of the mark before a relocation moves the write to its spare. -/
theorem State.answerStep_mark {op : WriteOp} {n m : Nat} {written : Bool} {x : MediaStep}
    (hp : s.media.port = some (.write op)) (ho : op.stage = .retiring n written)
    (hs : s.media.steps = [x]) (hm : s.nextSpare op = some m) :
    s.answerStep =
      (s.takeSpare m).programCopy { op with taken := m :: op.taken } m (some n) := by
  simp [State.answerStep, State.afterMark, State.relocate, hp, ho, hs, hm]

/-- Where an answer changes nothing, further ones change nothing either. -/
theorem State.answerSteps_fixed (h : s.answerStep = s) (k : Nat) : s.answerSteps k = s := by
  induction k with
  | zero => rfl
  | succ k ih => rw [State.answerSteps, h, ih]

@[simp] theorem State.startHead_keeps (e : StagingEntry) (l : List StagingEntry) :
    (s.startHead e l).control = s.control ∧ (s.startHead e l).member = s.member ∧
    (s.startHead e l).store.map = s.store.map ∧ (s.startHead e l).store.clock = s.store.clock ∧
    (s.startHead e l).media.port = s.media.port ∧
    (s.startHead e l).media.retired = s.media.retired ∧
    (s.startHead e l).media.sectors = s.media.sectors ∧
    (s.startHead e l).media.spares = s.media.spares ∧ (s.startHead e l).mount = s.mount ∧
    (s.startHead e l).line = s.line ∧ (s.startHead e l).writes = s.writes ∧
    (s.startHead e l).reads = s.reads ∧ (s.startHead e l).repair = s.repair ∧
    (s.startHead e l).client = s.client ∧ (s.startHead e l).pending = s.pending := by
  unfold State.startHead
  simp

@[simp] theorem State.takeWrite_keeps :
    s.takeWrite.control = s.control ∧ s.takeWrite.member = s.member ∧
    s.takeWrite.store.map = s.store.map ∧ s.takeWrite.store.clock = s.store.clock ∧
    s.takeWrite.media.retired = s.media.retired ∧ s.takeWrite.mount = s.mount ∧
    s.takeWrite.line = s.line ∧ s.takeWrite.writes = s.writes ∧ s.takeWrite.reads = s.reads ∧
    s.takeWrite.repair = s.repair ∧ s.takeWrite.client.outcome = s.client.outcome ∧
    s.takeWrite.client.tag = s.client.tag ∧ s.takeWrite.client.completions = s.client.completions ∧
    s.takeWrite.pending = s.pending := by
  unfold State.takeWrite
  (repeat' split) <;> simp

@[simp] theorem State.passOver_keeps :
    s.passOver.control = s.control ∧ s.passOver.member = s.member ∧ s.passOver.store = s.store ∧
    s.passOver.media.port = s.media.port ∧ s.passOver.media.retired = s.media.retired ∧
    s.passOver.media.sectors = s.media.sectors ∧ s.passOver.media.spares = s.media.spares ∧
    s.passOver.mount = s.mount ∧ s.passOver.line = s.line ∧ s.passOver.writes = s.writes ∧
    s.passOver.reads = s.reads ∧ s.passOver.repair = s.repair ∧ s.passOver.client = s.client ∧
    s.passOver.pending = s.pending := by
  unfold State.passOver
  (repeat' split) <;> simp

@[simp] theorem State.tryRead_keeps (r : ReadRequest) :
    (s.tryRead r).control = s.control ∧ (s.tryRead r).member = s.member ∧
    (s.tryRead r).store = s.store ∧ (s.tryRead r).media.retired = s.media.retired ∧
    (s.tryRead r).media.sectors = s.media.sectors ∧ (s.tryRead r).media.spares = s.media.spares ∧
    (s.tryRead r).mount = s.mount ∧ (s.tryRead r).line.discards = s.line.discards ∧
    (s.tryRead r).line.ignoring = s.line.ignoring ∧
    (s.tryRead r).line.replacement = s.line.replacement ∧ (s.tryRead r).writes = s.writes ∧
    (s.tryRead r).repair.list = s.repair.list ∧ (s.tryRead r).client.outcome = s.client.outcome ∧
    (s.tryRead r).client.tag = s.client.tag ∧
    (s.tryRead r).client.transaction = s.client.transaction ∧
    (s.tryRead r).client.events = s.client.events ∧
    (s.tryRead r).client.dropped = s.client.dropped ∧ (s.tryRead r).pending = s.pending := by
  unfold State.tryRead
  dsimp only
  (repeat' split) <;> simp

@[simp] theorem State.takeScrub_keeps (b : Nat) (l : List Nat) :
    (s.takeScrub b l).control = s.control ∧ (s.takeScrub b l).member = s.member ∧
    (s.takeScrub b l).store = s.store ∧ (s.takeScrub b l).media.retired = s.media.retired ∧
    (s.takeScrub b l).media.sectors = s.media.sectors ∧
    (s.takeScrub b l).media.spares = s.media.spares ∧ (s.takeScrub b l).mount = s.mount ∧
    (s.takeScrub b l).line = s.line ∧ (s.takeScrub b l).writes = s.writes ∧
    (s.takeScrub b l).reads = s.reads ∧ (s.takeScrub b l).repair = s.repair ∧
    (s.takeScrub b l).client = s.client ∧ (s.takeScrub b l).pending = s.pending := by
  unfold State.takeScrub
  dsimp only
  simp

theorem State.arbiterLow_keeps {s t : State} (h : s.arbiterLow = some t) :
    t.control = s.control ∧ t.member = s.member ∧ t.store.map = s.store.map ∧
    t.store.clock = s.store.clock ∧ t.media.retired = s.media.retired ∧ t.mount = s.mount ∧
    t.line.discards = s.line.discards ∧
    t.line.ignoring = s.line.ignoring ∧ t.line.replacement = s.line.replacement ∧
    t.writes = s.writes ∧ t.repair.list = s.repair.list ∧ t.client.outcome = s.client.outcome ∧
    t.client.tag = s.client.tag ∧ t.pending = s.pending := by
  unfold State.arbiterLow at h
  repeat' split at h
  all_goals first
    | (cases h; done)
    | (obtain rfl := Option.some.inj h; simp)

theorem State.arbiterStep_keeps {s t : State} (h : s.arbiterStep = some t) :
    t.control = s.control ∧ t.member = s.member ∧ t.store.map = s.store.map ∧
    t.store.clock = s.store.clock ∧ t.media.retired = s.media.retired ∧ t.mount = s.mount ∧
    t.line.discards = s.line.discards ∧
    t.line.ignoring = s.line.ignoring ∧ t.line.replacement = s.line.replacement ∧
    t.writes = s.writes ∧ t.repair.list = s.repair.list ∧ t.client.outcome = s.client.outcome ∧
    t.client.tag = s.client.tag ∧ t.pending = s.pending := by
  unfold State.arbiterStep at h
  repeat' split at h
  all_goals first
    | (simp [State.arbiterLow_keeps h]; done)
    | (cases h; done)
    | (obtain rfl := Option.some.inj h; simp)

theorem State.progress_keeps {s t : State} (h : s.progress = some t) :
    t.control = s.control ∧ t.member.tick = s.member.tick ∧
    t.member.faultReason = s.member.faultReason ∧
    t.member.heartbeatTimer = s.member.heartbeatTimer ∧
    t.member.heartbeatDue = s.member.heartbeatDue ∧ t.member.listenWindow = s.member.listenWindow ∧
    t.store.map = s.store.map ∧ t.store.clock = s.store.clock ∧ t.media.retired = s.media.retired ∧
    t.mount = s.mount ∧ t.line.discards = s.line.discards ∧
    t.line.ignoring = s.line.ignoring ∧
    t.line.replacement = s.line.replacement ∧ t.client.outcome = s.client.outcome ∧
    t.client.tag = s.client.tag ∧ t.pending = s.pending := by
  unfold State.progress at h
  cases hs : s.member.phase.serving <;> cases h1 : s.serveStep <;> cases h2 : s.cursorStep <;>
    cases h3 : s.fetchStep <;> simp [hs, h1, h2, h3] at h <;>
    first
      | (subst h; simp [State.serveStep_keeps h1]; done)
      | (subst h; simp [State.cursorStep_keeps h2]; done)
      | (subst h; simp [State.fetchStep_keeps h3]; done)
      | (simp [State.arbiterStep_keeps h]; done)

@[simp] theorem State.settleFor_keeps (n : Nat) :
    (State.settleFor n s).control = s.control ∧ (State.settleFor n s).member.tick = s.member.tick ∧
    (State.settleFor n s).member.faultReason = s.member.faultReason ∧
    (State.settleFor n s).member.heartbeatTimer = s.member.heartbeatTimer ∧
    (State.settleFor n s).member.heartbeatDue = s.member.heartbeatDue ∧
    (State.settleFor n s).member.listenWindow = s.member.listenWindow ∧
    (State.settleFor n s).store.map = s.store.map ∧
    (State.settleFor n s).store.clock = s.store.clock ∧
    (State.settleFor n s).media.retired = s.media.retired ∧ (State.settleFor n s).mount = s.mount ∧
    (State.settleFor n s).line.discards = s.line.discards ∧
    (State.settleFor n s).line.ignoring = s.line.ignoring ∧
    (State.settleFor n s).line.replacement = s.line.replacement ∧
    (State.settleFor n s).client.outcome = s.client.outcome ∧
    (State.settleFor n s).client.tag = s.client.tag ∧
    (State.settleFor n s).pending = s.pending := by
  induction n generalizing s with
  | zero => simp [State.settleFor]
  | succ n ih =>
    unfold State.settleFor
    split
    · rename_i h
      simp [ih, State.progress_keeps h]
    · simp

@[simp] theorem State.settle_keeps :
    s.settle.control = s.control ∧ s.settle.member.tick = s.member.tick ∧
    s.settle.member.faultReason = s.member.faultReason ∧
    s.settle.member.heartbeatTimer = s.member.heartbeatTimer ∧
    s.settle.member.heartbeatDue = s.member.heartbeatDue ∧
    s.settle.member.listenWindow = s.member.listenWindow ∧ s.settle.store.map = s.store.map ∧
    s.settle.store.clock = s.store.clock ∧ s.settle.media.retired = s.media.retired ∧
    s.settle.mount = s.mount ∧ s.settle.line.discards = s.line.discards ∧
    s.settle.line.ignoring = s.line.ignoring ∧
    s.settle.line.replacement = s.line.replacement ∧ s.settle.client.outcome = s.client.outcome ∧
    s.settle.client.tag = s.client.tag ∧ s.settle.pending = s.pending := by
  unfold State.settle
  (repeat' split) <;> simp

@[simp] theorem State.appendScrub_keeps (b : Nat) :
    (s.appendScrub b).control = s.control ∧ (s.appendScrub b).member = s.member ∧
    (s.appendScrub b).store = s.store ∧ (s.appendScrub b).media.port = s.media.port ∧
    (s.appendScrub b).media.retired = s.media.retired ∧
    (s.appendScrub b).media.sectors = s.media.sectors ∧
    (s.appendScrub b).media.spares = s.media.spares ∧ (s.appendScrub b).mount = s.mount ∧
    (s.appendScrub b).line = s.line ∧ (s.appendScrub b).writes = s.writes ∧
    (s.appendScrub b).reads = s.reads ∧ (s.appendScrub b).repair = s.repair ∧
    (s.appendScrub b).client.outcome = s.client.outcome ∧
    (s.appendScrub b).client.tag = s.client.tag ∧
    (s.appendScrub b).client.completions = s.client.completions ∧
    (s.appendScrub b).pending = s.pending := by
  unfold State.appendScrub
  (repeat' split) <;> simp

@[simp] theorem State.handToRepair_keeps (b : Nat) :
    (s.handToRepair b).control = s.control ∧ (s.handToRepair b).member = s.member ∧
    (s.handToRepair b).store = s.store ∧ (s.handToRepair b).media = s.media ∧
    (s.handToRepair b).mount = s.mount ∧ (s.handToRepair b).line = s.line ∧
    (s.handToRepair b).writes = s.writes ∧ (s.handToRepair b).reads = s.reads ∧
    (s.handToRepair b).client.outcome = s.client.outcome ∧
    (s.handToRepair b).client.tag = s.client.tag ∧
    (s.handToRepair b).client.completions = s.client.completions ∧
    (s.handToRepair b).pending = s.pending := by
  unfold State.handToRepair
  (repeat' split) <;> simp

@[simp] theorem State.loseBlock_keeps (b : Nat) (x : Option Nat) (h : LostBy) :
    (s.loseBlock b x h).control = s.control ∧ (s.loseBlock b x h).member = s.member ∧
    (s.loseBlock b x h).store.clock = s.store.clock ∧
    (s.loseBlock b x h).store.staging = s.store.staging ∧
    (s.loseBlock b x h).media.port = s.media.port ∧
    (s.loseBlock b x h).media.retired = s.media.retired ∧
    (s.loseBlock b x h).media.sectors = s.media.sectors ∧
    (s.loseBlock b x h).media.spares = s.media.spares ∧ (s.loseBlock b x h).mount = s.mount ∧
    (s.loseBlock b x h).line = s.line ∧ (s.loseBlock b x h).writes = s.writes ∧
    (s.loseBlock b x h).reads = s.reads ∧ (s.loseBlock b x h).repair = s.repair ∧
    (s.loseBlock b x h).client.outcome = s.client.outcome ∧
    (s.loseBlock b x h).client.tag = s.client.tag ∧
    (s.loseBlock b x h).client.completions = s.client.completions ∧
    (s.loseBlock b x h).pending = s.pending := by
  unfold State.loseBlock
  dsimp only
  simp

@[simp] theorem State.lostByRead_keeps (b : Nat) :
    (s.lostByRead b).control = s.control ∧ (s.lostByRead b).member = s.member ∧
    (s.lostByRead b).store.clock = s.store.clock ∧
    (s.lostByRead b).store.staging = s.store.staging ∧ (s.lostByRead b).media.port = s.media.port ∧
    (s.lostByRead b).media.retired = s.media.retired ∧
    (s.lostByRead b).media.sectors = s.media.sectors ∧
    (s.lostByRead b).media.spares = s.media.spares ∧ (s.lostByRead b).mount = s.mount ∧
    (s.lostByRead b).line = s.line ∧ (s.lostByRead b).writes = s.writes ∧
    (s.lostByRead b).reads = s.reads ∧ (s.lostByRead b).client.outcome = s.client.outcome ∧
    (s.lostByRead b).client.tag = s.client.tag ∧
    (s.lostByRead b).client.completions = s.client.completions ∧
    (s.lostByRead b).pending = s.pending := by
  unfold State.lostByRead
  simp

@[simp] theorem State.sendUpdate_keeps (i : Fin 8) :
    (s.sendUpdate i).control = s.control ∧ (s.sendUpdate i).member = s.member ∧
    (s.sendUpdate i).store = s.store ∧ (s.sendUpdate i).media = s.media ∧
    (s.sendUpdate i).mount = s.mount ∧ (s.sendUpdate i).line.discards = s.line.discards ∧
    (s.sendUpdate i).line.ignoring = s.line.ignoring ∧
    (s.sendUpdate i).line.replacement = s.line.replacement ∧ (s.sendUpdate i).reads = s.reads ∧
    (s.sendUpdate i).repair.list = s.repair.list ∧ (s.sendUpdate i).client = s.client ∧
    (s.sendUpdate i).pending = s.pending := by
  unfold State.sendUpdate
  dsimp only
  simp

end Sys2Proof.Machine
end

