-- ==== Sys2Proof/Laws/Tables.lean ====
section
/-! SUPPORT. The tables of the state: what a table entry reads as after an update, and that every
update of the block map and of the sector contents keeps their canonical form. -/

namespace Sys2Proof.Machine

/-! ## Fixed tables -/

theorem vector_get_set {α : Type} {n : Nat} (v : Vector α n) (i j : Fin n) (x : α) :
    (v.set i x).get j = if i = j then x else v.get j := by
  simp [Vector.get_eq_getElem, Vector.getElem_set, Fin.ext_iff]

@[simp] theorem vector_get_map {α β : Type} {n : Nat} (v : Vector α n) (f : α → β) (i : Fin n) :
    (v.map f).get i = f (v.get i) := by
  simp [Vector.get_eq_getElem]

theorem State.peer_setPeer (s : State) (n k : StationNo) (e : PeerEntry) :
    (s.setPeer n e).peer k = if n = k then e else s.peer k := vector_get_set _ _ _ _

theorem State.proposal_setProposal (s : State) (i j : Fin 8) (p : Proposal) :
    (s.setProposal i p).proposal j = if i = j then p else s.proposal j := vector_get_set _ _ _ _

theorem State.readEntry_setRead (s : State) (i j : Fin 4) (e : ReadEntry) :
    (s.setRead i e).readEntry j = if i = j then e else s.readEntry j := vector_get_set _ _ _ _

/-- Two tables that agree at every index are one. -/
theorem vector_ext_get {α : Type} {n : Nat} (v w : Vector α n) (h : ∀ i, v.get i = w.get i) :
    v = w := by
  ext i hi
  exact h ⟨i, hi⟩

/-! ## Tables with rising keys -/

theorem risingKeys_cons {α : Type} (k : Nat) (v : α) (l : List (Nat × α)) :
    risingKeys ((k, v) :: l) = true ↔ (∀ p, p ∈ l.head? → k < p.1) ∧ risingKeys l = true := by
  cases l <;> simp [risingKeys]

theorem lookupKey_putKey {α : Type} (l : List (Nat × α)) (n k : Nat) (v : α) :
    lookupKey (putKey l n v) k = if n = k then some v else lookupKey l k := by
  induction l with
  | nil => simp [putKey, lookupKey]
  | cons p l ih =>
    obtain ⟨m, w⟩ := p
    unfold putKey
    split
    · simp [lookupKey]
    · split
      · rename_i h
        subst h
        by_cases hk : n = k <;> simp [lookupKey, hk]
      · rename_i h
        by_cases hm : m = k
        · subst hm
          simp [lookupKey, h]
        · simp [lookupKey, hm, ih]

theorem putKey_head {α : Type} (l : List (Nat × α)) (n : Nat) (v : α) (m : Nat) (hm : m < n)
    (h : ∀ p, p ∈ l.head? → m < p.1) : ∀ p, p ∈ (putKey l n v).head? → m < p.1 := by
  cases l with
  | nil => simpa [putKey]
  | cons q l =>
    unfold putKey
    split
    · simpa
    · split
      · simpa
      · simpa using h q (by simp)

theorem risingKeys_putKey {α : Type} (l : List (Nat × α)) (n : Nat) (v : α)
    (h : risingKeys l = true) : risingKeys (putKey l n v) = true := by
  induction l with
  | nil => simp [putKey, risingKeys]
  | cons p l ih =>
    obtain ⟨m, w⟩ := p
    have h' := (risingKeys_cons m w l).mp h
    unfold putKey
    split
    · rename_i hn
      rw [risingKeys_cons]
      exact ⟨by simpa using hn, h⟩
    · split
      · rename_i hn
        rw [risingKeys_cons]
        exact ⟨hn ▸ h'.1, h'.2⟩
      · rename_i h1 h2
        rw [risingKeys_cons]
        exact ⟨putKey_head l n v m (by omega) h'.1, ih h'.2⟩

theorem risingKeys_below {α : Type} (l : List (Nat × α)) (k : Nat) (h : risingKeys l = true)
    (hk : ∀ p, p ∈ l.head? → k < p.1) : lookupKey l k = none := by
  induction l with
  | nil => rfl
  | cons p l ih =>
    obtain ⟨m, w⟩ := p
    have h' := (risingKeys_cons m w l).mp h
    have hm : k < m := hk _ rfl
    simp only [lookupKey]
    rw [if_neg (by omega)]
    exact ih h'.2 fun p hp => Nat.lt_trans hm (h'.1 p hp)

theorem lookupKey_eraseKey {α : Type} (l : List (Nat × α)) (n k : Nat)
    (h : risingKeys l = true) :
    lookupKey (eraseKey l n) k = if n = k then none else lookupKey l k := by
  induction l with
  | nil => simp [eraseKey, lookupKey]
  | cons p l ih =>
    obtain ⟨m, w⟩ := p
    have h' := (risingKeys_cons m w l).mp h
    unfold eraseKey
    split
    · rename_i hm
      subst hm
      split
      · rename_i hk
        exact hk ▸ risingKeys_below l m h'.2 h'.1
      · rename_i hk
        simp [lookupKey, hk]
    · rename_i hm
      by_cases hk : m = k
      · subst hk
        simp [lookupKey, Ne.symm hm]
      · simp [lookupKey, hk, ih h'.2]

theorem risingKeys_eraseKey {α : Type} (l : List (Nat × α)) (n : Nat)
    (h : risingKeys l = true) : risingKeys (eraseKey l n) = true := by
  induction l with
  | nil => rfl
  | cons p l ih =>
    obtain ⟨m, w⟩ := p
    have h' := (risingKeys_cons m w l).mp h
    unfold eraseKey
    split
    · exact h'.2
    · rw [risingKeys_cons]
      refine ⟨?_, ih h'.2⟩
      cases l with
      | nil => simp [eraseKey]
      | cons q l =>
        have hq : m < q.1 := h'.1 q rfl
        unfold eraseKey
        split
        · cases l with
          | nil => simp
          | cons r l =>
            have := ((risingKeys_cons q.1 q.2 (r :: l)).mp h'.2).1 r rfl
            intro p hp
            simp only [List.head?_cons, Option.mem_def, Option.some.injEq] at hp
            subst hp
            omega
        · simpa

theorem mem_putKey {α : Type} (l : List (Nat × α)) (n : Nat) (v : α) :
    ∀ p, p ∈ putKey l n v → p = (n, v) ∨ p ∈ l := by
  induction l with
  | nil => simp [putKey]
  | cons q l ih =>
    intro p hp
    unfold putKey at hp
    split at hp
    · simpa using hp
    · split at hp
      · simp only [List.mem_cons] at hp ⊢
        tauto
      · simp only [List.mem_cons] at hp ⊢
        rcases hp with hp | hp
        · exact .inr (.inl hp)
        · exact (ih p hp).imp_right .inr

theorem mem_eraseKey {α : Type} (l : List (Nat × α)) (n : Nat) :
    ∀ p, p ∈ eraseKey l n → p ∈ l := by
  induction l with
  | nil => simp [eraseKey]
  | cons q l ih =>
    intro p hp
    unfold eraseKey at hp
    split at hp
    · exact List.mem_cons_of_mem _ hp
    · simp only [List.mem_cons] at hp ⊢
      exact hp.imp_right (ih p)

/-! ## The block map and the sector contents -/

/-- Recording an entry keeps the block map canonical. -/
theorem State.mapWf_setEntry (s : State) (b : Nat) (e : MapEntry)
    (h : mapWf s.store.map = true) : mapWf (s.setEntry b e).store.map = true := by
  simp only [mapWf, Bool.and_eq_true, List.all_eq_true, decide_eq_true_eq, State.setEntry,
    State.onStore] at h ⊢
  split
  · exact ⟨risingKeys_eraseKey _ _ h.1, fun p hp => h.2 p (mem_eraseKey _ _ p hp)⟩
  · rename_i he
    refine ⟨risingKeys_putKey _ _ _ h.1, fun p hp => ?_⟩
    rcases mem_putKey _ _ _ p hp with rfl | hp
    · exact he
    · exact h.2 p hp

/-- The start of a step keeps the sector contents canonical. -/
theorem sectorsWf_programmed (sectors : List (Nat × SectorContent)) (step : MediaStep)
    (h : sectorsWf sectors = true) : sectorsWf (step.programmed sectors) = true := by
  cases step
  · exact risingKeys_putKey _ _ _ h
  · exact h
  · exact risingKeys_putKey _ _ _ h

/-- So do the steps that an operation is given, whatever it is. -/
theorem State.sectorsWf_usePort (s : State) (op : MediaOp) (steps : List MediaStep)
    (h : sectorsWf s.media.sectors = true) :
    sectorsWf (s.usePort op steps).media.sectors = true := by
  cases steps with
  | nil => exact h
  | cons step rest => exact sectorsWf_programmed _ _ h

/-- So does a relocation. -/
theorem State.sectorsWf_relocate (s : State) (op : WriteOp) (previous : Option Nat)
    (written : Bool) (h : sectorsWf s.media.sectors = true) :
    sectorsWf (s.relocate op previous written).media.sectors = true := by
  unfold State.relocate
  split
  · exact State.sectorsWf_usePort _ _ _ (by simpa using h)
  · exact State.sectorsWf_usePort _ _ _ (by simpa using h)

/-- And so do the answers of the sector memory. -/
theorem State.sectorsWf_answerStep (s : State) (h : sectorsWf s.media.sectors = true) :
    sectorsWf s.answerStep.media.sectors = true := by
  unfold State.answerStep State.afterMark
  repeat' split
  all_goals first
    | exact h
    | exact State.sectorsWf_relocate _ _ _ _ h
    | exact sectorsWf_programmed _ _ h

theorem State.sectorsWf_answerSteps (s : State) (k : Nat)
    (h : sectorsWf s.media.sectors = true) :
    sectorsWf (s.answerSteps k).media.sectors = true := by
  induction k generalizing s with
  | zero => exact h
  | succ k ih => exact ih _ (s.sectorsWf_answerStep h)

/-- What each block's entry reads as after one is recorded. -/
theorem State.entryOf_setEntry (s : State) (b k : Nat) (e : MapEntry)
    (h : e ≠ .unwritten ∨ mapWf s.store.map = true) :
    (s.setEntry b e).entryOf k = if b = k then e else s.entryOf k := by
  simp only [State.entryOf, State.setEntry, State.onStore]
  split
  · rename_i he
    have h' : risingKeys s.store.map = true := by
      rcases h with h | h
      · exact absurd he h
      · simp only [mapWf, Bool.and_eq_true] at h
        exact h.1
    rw [lookupKey_eraseKey _ _ _ h']
    by_cases hk : b = k <;> simp [hk, he]
  · rw [lookupKey_putKey]
    by_cases hk : b = k <;> simp [hk]

/-- What each sector holds after a step that programs one has started. -/
theorem lookupKey_program (sectors : List (Nat × SectorContent)) (n k : Nat) (c : SectorContent) :
    lookupKey (MediaStep.programmed sectors (.program n c)) k =
      if n = k then some c else lookupKey sectors k :=
  lookupKey_putKey _ _ _ _

/-- The machine after reset has both tables in canonical form. -/
theorem reset_tablesWf :
    mapWf State.reset.store.map = true ∧ sectorsWf State.reset.media.sectors = true := by
  decide

theorem mem_addSorted (l : List Nat) (n k : Nat) : k ∈ addSorted l n ↔ k ∈ l ∨ k = n := by
  induction l with
  | nil => simp [addSorted]
  | cons m l ih =>
    unfold addSorted
    split
    · simp only [List.mem_cons]; tauto
    · split
      · rename_i h
        subst h
        simp only [List.mem_cons]; tauto
      · simp only [List.mem_cons, ih]; tauto

/-! ## The out-queue -/

theorem length_enqueue (q : QueuedFrame) (l : List QueuedFrame) :
    (enqueue q l).length = l.length + 1 := by
  induction l with
  | nil => rfl
  | cons r l ih =>
    unfold enqueue
    split <;> simp [ih]

theorem mem_enqueue (q r : QueuedFrame) (l : List QueuedFrame) :
    r ∈ enqueue q l ↔ r = q ∨ r ∈ l := by
  induction l with
  | nil => simp [enqueue]
  | cons p l ih =>
    unfold enqueue
    split
    · simp
    · simp only [List.mem_cons, ih]; tauto

/-- A frame that joins keeps the out-queue in class order (R80). -/
theorem classOrdered_enqueue (q : QueuedFrame) (l : List QueuedFrame)
    (h : classOrdered l = true) : classOrdered (enqueue q l) = true := by
  induction l with
  | nil => simp [enqueue, classOrdered]
  | cons r l ih =>
    simp only [classOrdered, Bool.and_eq_true, List.all_eq_true, decide_eq_true_eq] at h
    unfold enqueue
    split
    · rename_i hq
      simp only [classOrdered, Bool.and_eq_true, List.all_eq_true, decide_eq_true_eq,
        List.mem_cons]
      refine ⟨?_, h⟩
      rintro x (rfl | hx)
      · exact hq.le
      · exact hq.le.trans (h.1 x hx)
    · rename_i hq
      simp only [classOrdered, Bool.and_eq_true, List.all_eq_true, decide_eq_true_eq]
      refine ⟨fun x hx => ?_, ih h.2⟩
      rcases (mem_enqueue q x l).mp hx with rfl | hx
      · omega
      · exact h.1 x hx

/-- A frame joins at its place: behind every frame of its class or a lower one (R80). -/
theorem enqueue_eq (q : QueuedFrame) (l : List QueuedFrame) :
    enqueue q l =
      l.takeWhile (fun r => decide (r.frame.body.cls ≤ q.frame.body.cls)) ++
        q :: l.dropWhile (fun r => decide (r.frame.body.cls ≤ q.frame.body.cls)) := by
  induction l with
  | nil => rfl
  | cons r l ih =>
    unfold enqueue
    by_cases h : q.frame.body.cls < r.frame.body.cls
    · simp [h, Nat.not_le.mpr h]
    · simp [h, Nat.not_lt.mp h, ih]

/-- A DIGEST takes its versions as it joins, and keeps its kind (R167). -/
theorem State.cls_atJoining (s : State) (f : Frame) :
    (s.atJoining f).body.cls = f.body.cls := by
  unfold State.atJoining
  split
  · rename_i h
    simp [h, Body.cls]
  · rfl

end Sys2Proof.Machine
end

