-- ==== Sys2Proof/Laws/Peers.lean ====
section
/-! SUPPORT. The phase machine and reception: a phase change moves between the phases of the line and
touches the own entry alone, and a delivered frame is handled on the state in which its sender was
heard. -/

namespace Sys2Proof.Machine

/-! ## What follows from the straps and the peer table being as they were -/

theorem State.own_of {s t : State} (h : t.control = s.control) : t.own = s.own := by
  simp [State.own, h]

theorem State.interval_of {s t : State} (h : t.control = s.control) :
    t.interval = s.interval := by
  simp [State.interval, h]

theorem State.quorum_of {s t : State} (h : t.control = s.control) : t.quorum = s.quorum := by
  simp [State.quorum, State.groupSize, h]

theorem State.awake_of {s t : State} (h : t.control = s.control) : t.awake = s.awake := by
  simp [State.awake, State.released, h]

theorem State.peer_of {s t : State} (h : t.member = s.member) (n : StationNo) :
    t.peer n = s.peer n := by
  simp [State.peer, h]

theorem State.entryOf_of {s t : State} (h : t.store = s.store) (b : Nat) :
    t.entryOf b = s.entryOf b := by
  simp [State.entryOf, h]

@[simp] theorem State.raise_peer (s : State) (k : EventKind) (b : Subject) (d : Detail)
    (n : StationNo) : (s.raise k b d).peer n = s.peer n := rfl

@[simp] theorem State.notice_peer (s : State) (p : RunPhase) (n : StationNo) :
    (s.notice p).peer n = s.peer n := State.peer_of (by simp) n

/-! ## Phase changes -/

theorem running_iff (p : Phase) :
    p.running = true ↔ p = .listening ∨ p = .catchingUp ∨ p = .online ∨ p = .isolated := by
  cases p <;> simp [Phase.running]

@[simp] theorem phaseOf_running (p : RunPhase) : (phaseOf p).running = true := by
  cases p <;> rfl

@[simp] theorem State.enterPhase_phase (s : State) (p : RunPhase) :
    (s.enterPhase p).member.phase = phaseOf p := by
  unfold State.enterPhase
  simp

theorem State.showOwn_peer (s : State) (p : RunPhase) (n : StationNo) (h : n ≠ s.own) :
    (s.showOwn p).peer n = s.peer n := by
  unfold State.showOwn
  rw [State.peer_setPeer]
  simp [Ne.symm h]

theorem State.enterPhase_peer (s : State) (p : RunPhase) (n : StationNo) (h : n ≠ s.own) :
    (s.enterPhase p).peer n = s.peer n := by
  unfold State.enterPhase
  rw [State.notice_peer, State.raise_peer]
  exact State.showOwn_peer (s.onMember fun m => { m with phase := phaseOf p }) p n h

/-- The own entry after a phase change (R102). -/
theorem State.enterPhase_own (s : State) (p : RunPhase) :
    (s.enterPhase p).peer s.own =
      { s.peer s.own with state := .present, reported := some p } := by
  unfold State.enterPhase
  rw [State.notice_peer, State.raise_peer]
  unfold State.showOwn
  rw [State.peer_setPeer]
  exact if_pos rfl

theorem State.applyJoin_spec (s : State) (o : CatchUpOrigin) :
    (s.member.phase.running = true → (s.applyJoin o).member.phase.running = true) ∧
      ∀ n, n ≠ s.own → (s.applyJoin o).peer n = s.peer n := by
  unfold State.applyJoin
  split
  · exact ⟨id, fun _ _ => rfl⟩
  · exact ⟨by simp, fun n h => State.enterPhase_peer _ _ _ h⟩
  · refine ⟨by simp, fun n h => ?_⟩
    rw [State.enterPhase_peer _ _ _ (by rw [State.own_of (s := s) (by simp)]; exact h)]
    exact State.peer_of (s := s.onMember fun m => { m with origin := some o }) (by simp) n

theorem State.abandonCatchUp_spec (s : State) :
    s.abandonCatchUp.member.phase.running = true ∧
      ∀ n, n ≠ s.own → s.abandonCatchUp.peer n = s.peer n := by
  unfold State.abandonCatchUp
  dsimp only
  have h0 : ∀ n, (s.stopCursor.onMember fun m => { m with origin := none }).peer n = s.peer n :=
    fun n => by simp [State.peer]
  have h1 : (s.stopCursor.onMember fun m => { m with origin := none }).own = s.own :=
    State.own_of (by simp)
  have h2 : ∀ p, ((s.stopCursor.onMember fun m => { m with origin := none }).enterPhase p).own =
      s.own := fun p => State.own_of (by simp)
  split
  · split
    · refine ⟨(State.applyJoin_spec _ _).1 (by simp), fun n h => ?_⟩
      rw [(State.applyJoin_spec _ _).2 n (by rw [h2]; exact h),
        State.enterPhase_peer _ _ _ (by rw [h1]; exact h), h0]
    · refine ⟨by simp, fun n h => ?_⟩
      rw [State.enterPhase_peer _ _ _ (by rw [h1]; exact h), h0]
  · refine ⟨(State.applyJoin_spec _ _).1 (by simp), fun n h => ?_⟩
    rw [(State.applyJoin_spec _ _).2 n (by rw [h2]; exact h),
      State.enterPhase_peer _ _ _ (by rw [h1]; exact h), h0]

/-- The phase test leaves a station of the line in a phase of the line, and every entry but the own
one as it was. -/
theorem State.phaseTest_spec (s : State) :
    (s.member.phase.running = true → s.phaseTest.member.phase.running = true) ∧
      ∀ n, n ≠ s.own → s.phaseTest.peer n = s.peer n := by
  unfold State.phaseTest
  split
  · split
    · exact State.applyJoin_spec _ _
    · exact ⟨id, fun _ _ => rfl⟩
  · split
    · exact ⟨fun _ => (State.abandonCatchUp_spec s).1, (State.abandonCatchUp_spec s).2⟩
    · exact ⟨id, fun _ _ => rfl⟩
  · split
    · exact ⟨by simp, fun n h => State.enterPhase_peer _ _ _ h⟩
    · exact ⟨id, fun _ _ => rfl⟩
  · split
    · exact State.applyJoin_spec _ _
    · exact ⟨id, fun _ _ => rfl⟩
  · exact ⟨id, fun _ _ => rfl⟩
  · exact ⟨id, fun _ _ => rfl⟩

/-! ## Reception -/

/-- Hearing a sender keeps the station on the line. -/
theorem State.live_heard (s : State) (n : StationNo) (h : s.live = true) :
    (s.heard n).live = true := by
  simp only [State.live, Bool.and_eq_true] at h ⊢
  refine ⟨by rw [State.awake_of (s := s) (by simp)]; exact h.1, ?_⟩
  unfold State.heard
  dsimp only
  split
  · exact (State.phaseTest_spec _).1 (by simpa using h.2)
  · exact (State.phaseTest_spec _).1 (by simpa using h.2)
  · simpa using h.2
  · simpa using h.2

/-- Hearing a sender neither puts it in CONFLICT nor takes it out (R103). -/
theorem State.heard_conflict (s : State) (n : StationNo) (h : n ≠ s.own) :
    ((s.heard n).peer n).state = .conflict ↔ (s.peer n).state = .conflict := by
  have shown := (State.phaseTest_spec ((s.setPeer n { s.peer n with
    state := .present, reported := none, reason := none, silence := s.silenceWindow }).raise
      .peerHeard (.station n) .none)).2 n h
  rw [State.raise_peer, State.peer_setPeer, if_pos rfl] at shown
  unfold State.heard
  dsimp only
  split
  · rename_i h2
    rw [shown]
    simp [h2]
  · rename_i h2
    rw [shown]
    simp [h2]
  · rename_i h2
    simp [State.peer_setPeer, h2]
  · rename_i h2
    simp [State.peer_setPeer, h2]

/-- A frame that the station gets is delivered once its sender was heard, and the units go on. -/
theorem State.receive_gets {s : State} {n : StationNo} (h : s.GetsFrom n)
    (target : Option StationNo) (ht : target = none ∨ target = some s.own)
    (deliver : State → State) :
    s.receive n target deliver = (deliver (s.heard n)).settle := by
  obtain ⟨⟨h1, hi⟩, h2, h3⟩ := h
  have hd : (s.heard n).delivers n target = true := by
    have := mt (State.heard_conflict s n h2).mp h3
    rcases ht with rfl | rfl <;>
      simp [State.delivers, this, State.own_of (s := s) (t := s.heard n) (by simp)]
  simp [State.receive, State.reception, h1, hi, h2, hd]

end Sys2Proof.Machine
end

