-- ==== Sys2Proof/Laws/Sectors.lean ====
section
/-! SUPPORT. Bits as bytes, and sectors as bytes: a byte among bits reads as itself, the lengths of
what the part programs, and that a sector read as it was programmed decodes to it. -/

namespace Sys2Proof.Machine

/-- A byte sent most significant bit first reads back at its place in a run of bits (R77, R178). -/
theorem fieldAt_byte (before : List Bool) (v : Byte) (after : List Bool) :
    fieldAt (before ++ (bitsOf v ++ after)) before.length 8 = v := by
  have value : ∀ v : Byte,
      BitVec.ofNat 8 ((bitsOf v).foldl (fun n b => 2 * n + b.toNat) 0) = v := by decide
  have taken : (bitsOf v ++ after).take 8 = bitsOf v := List.take_left' (by simp [bitsOf])
  rw [fieldAt, List.drop_left, taken]
  exact value v

/-- A transaction has as many whole bytes as eights of bits (R178). -/
@[simp] theorem wholeBytes_length (bits : List Bool) :
    (wholeBytes bits).length = bits.length / 8 := by
  simp [wholeBytes]

theorem SectorContent.header_length (c : SectorContent) : c.header.length = 8 := by
  cases c <;> rfl

/-- Header, header check and data are bytes 0..137 (R40). -/
theorem SectorContent.body_length (c : SectorContent) : c.body.length = 138 := by
  simp [SectorContent.body, c.header_length, bytes16]

/-- The code adds 8 symbols (R40). -/
theorem codeword_length (bytes : List Byte) : (codeword bytes).length = bytes.length + 8 := by
  simp [codeword]

theorem SectorContent.image_length (c : SectorContent) : c.image.length = 146 := by
  simp [SectorContent.image, codeword_length, c.body_length]

/-- A list has no place where it differs from itself. -/
theorem zipWith_ne_self (l : List Byte) :
    (List.zipWith (fun a b => decide (a ≠ b)) l l).count true = 0 := by
  induction l with
  | nil => rfl
  | cons a l ih => simpa using ih

/-- A codeword has no symbol in error. -/
theorem symbolErrors_codeword (bytes : List Byte) : symbolErrors (codeword bytes) bytes = 0 :=
  zipWith_ne_self _

/-- What the part programs is not the erased state. -/
theorem SectorContent.image_not_blank (c : SectorContent) :
    c.image.all (· == 0xFF#8) = false := by
  cases c <;> simp [SectorContent.image, codeword, SectorContent.body, SectorContent.header]

/-- A sector read as the part programmed it decodes to what was programmed, with no symbol corrected
(R41). -/
theorem readBack_image (c : SectorContent) (corrected : Option (List Byte)) :
    readBack (some c) (.image c.image corrected) = .decoded c.body 0 := by
  have h0 : symbolErrors c.image c.body = 0 := symbolErrors_codeword c.body
  have h : corrects c.image c.body = true := by
    simp [corrects, c.image_length, c.body_length, h0]
  simp [readBack, decodeTo, c.image_not_blank, h, h0]

end Sys2Proof.Machine
end

