-- ==== Sys2Proof/WellFormed.lean ====
section
/-! DEFINITION. Which commands are well formed: operands that the outside can supply. The types of
Syntax.lean bound station numbers, ranges, sets, data and entries already; these are the checks that
remain. -/

namespace Sys2Proof

/-- The answer to a sector read: 146 bytes, and bytes 0..137 of a codeword (R40, R41). -/
def Reading.wellFormed : Reading → Bool
  | .stored _ => true
  | .image raw none => raw.length == 146
  | .image raw (some bytes) => raw.length == 146 && bytes.length == 138

/-- The body length field has 9 bits (R77). -/
def RawFrame.wellFormed (f : RawFrame) : Bool := decide (f.body.length < 512)

/-- A command is well formed: an attempt field of 1..4 (R79), a readable sector answer, a frame of
at most 511 body bytes, bits that break off a reception for RECEPTION_ERROR (R89), a malformed
packet for BAD_REQUEST (R181), and no known command byte for UNKNOWN_COMMAND (R178). -/
def Instr.wellFormed : Instr → Bool
  | .scan r _ | .sectorReadCompletion r | .scrubReadCompletion r => r.wellFormed
  | .verify _ r => r.wellFormed
  | .frameDiscarded f | .addressConflict f => f.wellFormed
  | .updateReceived _ _ _ attempt _ _ _ => Machine.attemptOk attempt
  | .queryReceived _ _ attempt _ => Machine.attemptOk attempt
  | .receptionError bits => decide (Machine.readLine bits = .broken)
  | .badRequest packet => !Machine.packetWellFormed packet
  | .unknownCommand (code :: _) => !Machine.knownCommand code
  | .unknownCommand [] => true
  | .powerOn | .resetn _ | .resetRelease .. | .tick _ | .marking .. | .mediaStepLimitExpiry
  | .portFault | .writeCompletion | .transmissionStart | .arbitrationLost | .readBackMismatch
  | .transmissionCompletion | .heartbeatReceived .. | .ackReceived ..
  | .reportReceived .. | .fetchReceived .. | .repairReceived .. | .notHeldReceived ..
  | .digestReceived .. | .rangeDoneReceived .. | .pushReceived .. | .busyReceived ..
  | .notServingReceived .. | .heartbeatTimerExpiry | .listenWindowExpiry | .silenceWindowExpiry _
  | .submitWrite .. | .ackWindowExpiry _ | .submitAbort _ | .submitReadLocal .. | .submitReadFresh ..
  | .queryWindowExpiry _ | .fetchWindowExpiry _ | .readBackOffExpiry _ | .fetchSlotWindowExpiry
  | .fetchSlotBackOffExpiry | .rangeWindowExpiry | .pushDeadlineExpiry | .digestBackoffExpiry
  | .restExpiry | .transactionOpen | .take | .takeEnd _ | .events | .eventsEnd _ | .status _
  | .restart | .restartTakesEffect _ | .arbitrationWon => true

end Sys2Proof
end

