-- ==== Sys2Proof/Tests/Slice0.lean ====
section
/-! SUPPORT. Tests: ill-formed commands that the check refuses, the cyclic check and the layouts on
fixed values, a few steps, and for each statement with hypotheses a state and operands that meet
them. -/

namespace Sys2Proof.Tests

open Sys2Proof Sys2Proof.Machine

set_option maxRecDepth 100000

/-! ## Well-formedness: one ill-formed command for each check -/

theorem test_wf_attempt_of_update :
    Instr.wellFormed (.updateReceived 2 0#16 .nil 0#8 0#8 false Data.zero) = false ∧
      Instr.wellFormed (.updateReceived 2 0#16 .nil 4#8 0#8 false Data.zero) = true := by decide

theorem test_wf_attempt_of_query :
    Instr.wellFormed (.queryReceived 2 0#16 5#8 0#8) = false ∧
      Instr.wellFormed (.queryReceived 2 0#16 1#8 0#8) = true := by decide

theorem test_wf_answer_has_146_bytes :
    Instr.wellFormed (.scan (.image [0xFF#8] none)) = false ∧
      Instr.wellFormed (.scan (.image (List.replicate 146 0xFF#8) none)) = true := by decide

theorem test_wf_correction_has_138_bytes :
    Instr.wellFormed (.verify false (.image (List.replicate 146 0#8) (some [0#8]))) = false ∧
      Instr.wellFormed (.sectorReadCompletion (.image [] (some (List.replicate 138 0#8)))) =
        false ∧
      Instr.wellFormed (.scrubReadCompletion
        (.image (List.replicate 146 0#8) (some (List.replicate 138 0#8)))) = true := by decide

theorem test_wf_reception_error_is_broken :
    Instr.wellFormed (.receptionError [false, true, false]) = false ∧
      Instr.wellFormed (.receptionError [true, true, true, true, true, true]) = false ∧
      Instr.wellFormed (.receptionError [false, false, false, false, false, false]) = true := by
  decide

/-- A raw frame with an empty body. -/
def rawFrame (body : List Byte) (check : BitVec 16) : RawFrame :=
  ⟨2#2, 2#3, 1#4, 6#4, body, check⟩

theorem test_wf_body_below_512 :
    Instr.wellFormed (.frameDiscarded (rawFrame (List.replicate 512 0#8) 0#16)) = false ∧
      Instr.wellFormed (.addressConflict (rawFrame [] 0#16)) = true := by decide

theorem test_wf_bad_request_is_malformed :
    Instr.wellFormed (.badRequest [0x04#8, 0x07#8]) = false ∧
      Instr.wellFormed (.badRequest [0x04#8]) = true ∧
      Instr.wellFormed (.badRequest []) = true ∧
      Instr.wellFormed (.badRequest [0x05#8, 0x07#8]) = true := by decide

theorem test_wf_unknown_command_is_unknown :
    Instr.wellFormed (.unknownCommand [0x05#8]) = false ∧
      Instr.wellFormed (.unknownCommand [0x06#8, 0#8]) = true ∧
      Instr.wellFormed (.unknownCommand [0x00#8]) = true ∧
      Instr.wellFormed (.unknownCommand []) = true := by decide

/-! ## The check and the layouts -/

/-- The check of the nine digits 1 to 9 with this generator and start value is 29B1h. -/
theorem test_check_of_digits :
    checkOf (bitsOfBytes [0x31#8, 0x32#8, 0x33#8, 0x34#8, 0x35#8, 0x36#8, 0x37#8, 0x38#8, 0x39#8])
      = 0x29B1#16 := by decide

/-- A FETCH of block 0102h from station 3 to station 5 is read back as it was built. -/
theorem test_fetch_reads_back :
    judgeFrame 1 (Frame.raw ⟨3, some 5, .fetch 0x0102#16⟩) =
      .good ⟨3, some 5, .fetch 0x0102#16⟩ := by decide

/-- A frame of the wrong class, of the wrong target form and of the wrong length fail the form test.
-/
theorem test_form_fails :
    frameForm ⟨1#2, 3#3, 5#4, 6#4, [0#8, 0#8], 0#16⟩ = none ∧
      frameForm ⟨2#2, 3#3, 15#4, 6#4, [0#8, 0#8], 0#16⟩ = none ∧
      frameForm ⟨2#2, 3#3, 5#4, 6#4, [0#8], 0#16⟩ = none ∧
      frameForm ⟨2#2, 3#3, 5#4, 14#4, [0#8, 0#8], 0#16⟩ = none := by decide

/-- After five equal bits one opposite bit is stuffed, and none after the last bit. -/
theorem test_stuffing :
    stuffFrom false 1 [false, false, false, false, true] =
        [false, false, false, false, true, true] ∧
      stuffFrom false 1 [false, false, false, false] = [false, false, false, false] := by decide

/-- The bits of a FETCH read back as the frame they spell, and a sixth equal bit breaks off. -/
theorem test_line_reads_back :
    let raw := Frame.raw ⟨3, some 5, .fetch 0x0102#16⟩
    readLine (lineBits raw) = .frame raw ∧
      receptionOf 1 (lineBits raw) = some (.fetchReceived 3 5 0x0102#16) ∧
      readLine ((lineBits raw).take 20) = .unfinished ∧
      readLine ((lineBits raw).take 20 ++ List.replicate 6 true) = .broken := by decide

/-- The bits of SDI make whole bytes, most significant bit first, and a partial byte is dropped (R178).
-/
theorem test_bits_make_whole_bytes :
    wholeBytes (bitsOf 0x04#8 ++ bitsOf 0xA5#8 ++ [true, false, true]) = [0x04#8, 0xA5#8] ∧
      wholeBytes (List.replicate 7 true) = [] := by decide

/-- Byte 0 and the packet behind it make the command (R180, R181). -/
theorem test_bytes_make_the_command :
    commandAtEnd [0x01#8, 0x01#8, 0x07#8, 0x0F#8, 0xFF#8, 0x55#8] =
        .submitReadLocal 7#8 4095#16 ∧
      commandAtEnd [0x01#8, 0x04#8, 0x07#8] = .submitAbort 7#8 ∧
      commandAtEnd [0x01#8, 0x03#8, 0x07#8] = .badRequest [0x03#8, 0x07#8] ∧
      commandAtEnd [0x02#8, 0#8, 0#8] = .takeEnd 3 ∧ commandAtEnd [0x04#8] = .status true ∧
      commandAtByte 0x04#8 = some .status ∧
      commandAtEnd [0x06#8] = .unknownCommand [0x06#8] := by decide

/-- No word spells a command. -/
theorem test_no_word_spells_a_command :
    decodeTableWord 16 0 = none ∧ State.reset.withFetchWord 16 0 = State.reset := ⟨rfl, rfl⟩

/-! ## States for the witnesses -/

/-- The sum of a state's changes: station 1 of a group of 3 (Q = 2) with H = 8, in the given phase,
station 2 PRESENT and ONLINE, the media port free. -/
def station (phase : Phase) : State :=
  { State.reset with
    control := ⟨false, false, false, ⟨1#3, 2#3, 0#2⟩⟩
    member := { Membership.reset with
      phase := phase
      peers := (Membership.reset.peers.set 1 ⟨.present, phase.run, 0#32, none, none⟩).set 2
        ⟨.present, some .online, 0#32, none, some 24⟩ }
    media := { State.reset.media with port := none, steps := [], stepWindow := none } }

/-- A version of station 2. -/
def v2 : Version := ⟨5#32, 2⟩

/-- The port carries the given operation, in a step that is 8 ticks old. -/
def atPort (op : MediaOp) (s : State) : State :=
  { s with media := { s.media with port := some op, steps := [.read 7], stepWindow := some 0 } }

/-- The serve slot holds the given job. -/
def serving (job : ServeJob) (s : State) : State :=
  { s with repair := { s.repair with serve := some job } }

/-- The part waits for its RESTART. -/
def waitingForRestart (s : State) : State :=
  { s with control := { s.control with restarting := true } }

/-- The part is held by its power-on reset. -/
def heldInReset (s : State) : State :=
  { s with control := { s.control with powerOnHeld := true } }

/-- The map lists block 7 with the given condition, and the staging queue is as given. -/
def holding (condition : Condition) (staging : List StagingEntry) (s : State) : State :=
  { s with store := ⟨9#32, [(7, ⟨some 7, v2, v2, condition⟩)], staging⟩ }

/-- The out-queue is as given. -/
def queued (queue : List QueuedFrame) (s : State) : State :=
  { s with line := { s.line with queue := queue } }

/-- The catch-up cursor is as given. -/
def withCursor (c : Cursor) (s : State) : State :=
  { s with repair := { s.repair with cursor := c } }

/-- The fetch slot is as given. -/
def withFetch (f : FetchSlot) (s : State) : State :=
  { s with repair := { s.repair with fetch := f } }

/-- The client's open transaction is as given. -/
def inTransaction (t : Transaction) (s : State) : State :=
  { s with client := { s.client with transaction := t } }

/-- A FETCH frame in a state of the queue. -/
def fetchFrame (state : FrameState) : QueuedFrame := ⟨0, ⟨1, some 2, .fetch 7#16⟩, state⟩

/-- A heartbeat frame in a state of the queue. -/
def heartbeatFrame (id : Nat) (state : FrameState) : QueuedFrame :=
  ⟨id, ⟨1, none, .heartbeat .online 0#32 3#8 0x41#8 0#8 0#8⟩, state⟩

/-- A write of block 7 at its stage. -/
def writeOf (stage : WriteStage) (taken : List Nat) : MediaOp :=
  .write ⟨7, v2, Data.zero, stage, taken⟩

/-- A staging entry of block 7. -/
def entry7 (source : Source) (state : StagingState) : StagingEntry :=
  ⟨7, v2, Data.zero, source, state⟩

/-! ## A few steps -/

/-- The first SCAN after reset, of a blank sector, records BLANK and goes on to sector 1. -/
theorem test_first_scan :
    exec (.scan (.stored 0)) State.reset = .next { State.reset with
      media := { State.reset.media with port := some (.scanRead 1), steps := [.read 1] }
      mount := ⟨[.blank], []⟩ } := by rfl

/-- With the bytes of the empty station, TRANSACTION_OPEN returns status 00h and no outcome. -/
theorem test_leading_bytes : State.reset.leadingBytes = [0x00#8, 0x00#8, 0x00#8] := by decide

/-- The status byte of an ONLINE station with a completion pending is 70h (R191). -/
theorem test_status_byte :
    (((station .online).complete (.write 1#8 .ok v2 .online)).statusByte) = 0x70#8 := by decide

/-- The join test at a station that sees one ONLINE peer starts catch-up with it. -/
theorem test_join_finds_server : (station .listening).joinTest = .catchUp 2 := by decide

/-- The version order: larger sequence first, then larger origin. -/
theorem test_newer :
    newer ⟨6#32, 0⟩ v2 = true ∧ newer ⟨5#32, 3⟩ v2 = true ∧ newer ⟨5#32, 1⟩ v2 = false := by decide

/-! ## Witnesses: commands and resets -/

theorem test_witness_StepTakesTheFrontCommand :
    { station .online with pending := [.tick] }.pending = .tick :: [] ∧
      (station .online).pending = [] := by decide

theorem test_witness_SettlingKeeps :
    let s := station .online
    let listed := { s with repair := { s.repair with list := [7] } }
    let pushing := withCursor { Cursor.idle with state := .pushing, server := some 2 }
      (station .catchingUp)
    (station .mounting).live = false ∧ (station .listening).member.phase.serving = false ∧
      (atPort (.scrubRead 7 7 v2) s).media.port.isSome = true ∧ s.live = true ∧
      s.member.phase.serving = true ∧ s.repair.serve = none ∧ s.repair.serveQueue = [] ∧
      s.repair.cursor.state ≠ .pushing ∧ s.repair.list = [] ∧ s.progress = none ∧
      s.serveStep = none ∧ s.cursorStep = none ∧ s.fetchStep = none ∧
      pushing.serveStep = none ∧ pushing.cursorStep.isSome = true ∧
      listed.cursorStep = none ∧ listed.fetchStep.isSome = true := by decide

/-- A request of station 2 that the serve slot answers, at an offset and a stage. -/
def jobOf (kind : ServeKind) (offset : Nat) (stage : ServeStage) : ServeJob :=
  ⟨⟨2, kind⟩, offset, 0, 0#64, stage⟩

theorem test_witness_serve_slot :
    let s := fun c => holding c [] (station .online)
    let digest := ServeKind.digest 0 (Vector.replicate 64 ⟨4#32, 0⟩)
    let nil := ServeKind.digest 0 (Vector.replicate 64 .nil)
    ({ s .clean with repair := { (s .clean).repair with
        serveQueue := [⟨2, .fetch 7#16⟩] } } : State).serveStep.isSome = true ∧
      (serving (jobOf (.fetch 7#16) 0 .ready) (s .clean)).repair.serve =
        some (jobOf (.fetch 7#16) 0 .ready) ∧
      ((s .staged).entryOf 7).condition = .staged ∧ ((s .lost).entryOf 7).condition = .lost ∧
      ((s .lost).entryOf 8).condition = .unwritten ∧
      (jobOf digest 7 .ready).offset = (7 : Fin 64).val ∧
      (jobOf digest 64 .ready).offset = 64 ∧
      newer ((s .clean).entryOf 7).version ⟨4#32, 0⟩ = true ∧
      newer ⟨4#32, 0⟩ ((s .clean).entryOf 8).version = true ∧
      newer ((s .lost).entryOf 7).version ⟨4#32, 0⟩ = true ∧ (⟨4#32, 0⟩ : Version) ≠ .nil ∧
      (jobOf nil 8 .ready).request.kind = nil ∧
      newer (received .nil) ((s .clean).entryOf 8).version = false ∧
      (jobOf digest 7 (.placing 4 true)).stage = .placing 4 true ∧
      (jobOf digest 7 (.reading 4)).stage = .reading 4 := by decide

theorem test_witness_ReleaseSamplesStrapsAndMounts :
    let held : Bool → Bool → State := fun p r =>
      { State.reset with control := ⟨p, r, false, ⟨0#3, 0#3, 0#2⟩⟩ }
    State.reset.released = true ∧ (held true false).released = false ∧
      ((held true true).control.release .powerOn).resetnHeld = true ∧
      ((held true false).control.release .powerOn) = ⟨false, false, false, ⟨0#3, 0#3, 0#2⟩⟩ := by
  decide

theorem test_witness_ResetsHoldThePart :
    exec (.resetn 7) (station .online) = .next (station .online) ∧ (7 : Nat) < 8 ∧ 8 ≤ 8 ∧
      (station .online).client.transaction = .closed ∧
      (inTransaction (.opened [] .silent) (station .online)).client.transaction ≠ .closed :=
  ⟨rfl, by decide, by decide, by decide, by decide⟩

/-- A held part returns no byte and drives nothing. -/
theorem test_held_part_drives_nothing :
    let s := heldInReset (atPort (.scanRead 0) (station .online))
    let t := inTransaction (.opened [1#8] .silent) s
    t.sdo 0 = none ∧ t.lineFrame = none ∧ t.mediaSelected = false ∧ t.attention = false ∧
      t.mediaDriven true = false ∧ (station .online).mediaDriven true = true ∧
      (inTransaction (.opened [1#8] .silent) (station .online)).sdoBit 7 = some true ∧
      (inTransaction (.opened [1#8] .silent) (station .online)).sdo 0 = some 1#8 ∧
      (inTransaction .ignored (waitingForRestart (station .online))).sdo 0 = some 0xFF#8 ∧
      (atPort (.scanRead 0) (station .online)).mediaSelected = true := by decide

theorem test_witness_RestartWaitsForThePort :
    let waiting := waitingForRestart (station .online)
    (station .online).awake = true ∧ (station .online).client.transaction.deaf = false ∧
      waiting.released = true ∧ waiting.control.restarting = true ∧ waiting.media.port = none ∧
      (atPort (.scanRead 3) waiting).media.port ≠ none ∧ waiting.awake = false ∧
      waiting.live = false ∧ (station .faulted).live = false ∧
      (atPort (.retireMark 3) waiting).media.port = some (.retireMark 3) ∧
      (atPort (.sectorRead ⟨.client, 0, 7⟩ 7 v2) (station .faulted)).media.steps ≠ [] ∧
      (atPort (writeOf (.verifying 4096 (some 7)) [4096]) (station .faulted)).media.port =
        some (writeOf (.verifying 4096 (some 7)) [4096]) ∧
      verifyResult false (.decoded (SectorContent.body (.copy 7 v2 Data.zero)) 0) = .good ∧
      verifyResult false (.decoded (SectorContent.body (.copy 7 v2 Data.zero)) 1) = .weak ∧
      verifyResult true .blank = .failed ∧ [4096].length < 3 ∧
      (atPort (writeOf (.retiring 4096 true) [4096]) (station .faulted)).media.steps.length = 1 ∧
      (station .faulted).media.spares.find? (fun k => !([4096] : List Nat).contains k) = none ∧
      [4096, 4097].find? (fun k => !([4096] : List Nat).contains k) = some 4097 ∧
      (station .online).control.restarting = false := by decide

theorem test_witness_TickCountsEveryWindow :
    let timed := fun n => ({ station .online with
      member := { (station .online).member with heartbeatTimer := n } } : State)
    { State.reset with control := ⟨true, false, false, ⟨0#3, 0#3, 0#2⟩⟩ }.released = false ∧
      State.reset.released = true ∧ State.reset.live = false ∧
      State.reset.media.steps.length ≤ 1 ∧
      ({ station .online with media := { (station .online).media with
        steps := [.program 7 (.mark 7), .read 7] } } : State).media.steps =
          .program 7 (.mark 7) :: .read 7 :: [] ∧
      (timed none).live = true ∧ (timed (some 1)).live = true ∧ (timed (some 2)).live = true := by
  decide

/-! ## Witnesses: mount and media -/

theorem test_witness_ScanRecordsEachFinding :
    State.reset.media.port = some (.scanRead 0) ∧ State.reset.awake = true ∧ 0 + 1 < 4224 ∧
      (atPort (.scanRead 4223) State.reset).media.port = some (.scanRead 4223) ∧
      4224 ≤ 4223 + 1 := by decide

/-- After the last SCAN the marking list may be empty, or hold a sector. -/
theorem test_witness_last_scan :
    (State.reset.resolve [.blank]).mount.marking = [] ∧
      (State.resolve { State.reset with mount := ⟨[], [7]⟩ } [.blank]).mount.marking = 7 :: [] := by
  decide

theorem test_witness_SectorsReadByTheirHeader :
    v2.seq ≠ 0#32 ∧ 4095 < 4096 ∧
      headerOf (SectorContent.body (.copy 7 v2 Data.zero)) = some (.copy 2#8 7#16 5#32) ∧
      headerOf (SectorContent.body (.mark 7)) = some .mark ∧
      bytes16 (checkOf (bitsOfBytes [1#8, 8#8, 0x10#8, 0#8, 0#8, 0#8, 0#8, 0#8])) ≠ [0#8, 0#8] ∧
      bytes16 (checkOf (bitsOfBytes (SectorContent.header (.copy 7 v2 Data.zero)))) =
        ((SectorContent.body (.copy 7 v2 Data.zero)).drop 8).take 2 ∧
      (word16 0x10#8 0#8).toNat = 4096 ∧ (word16 0x0F#8 0xFF#8).toNat < 4096 ∧
      word32 0#8 0#8 0#8 0#8 = 0#32 ∧ 8 ≤ (8#8).toNat ∧ (7#8).toNat = (7 : StationNo).val ∧
      (List.replicate 146 0xFF#8).length = 146 ∧
      List.replicate 146 0#8 ≠ List.replicate 146 0xFF#8 := by decide

/-- A sector read as it was programmed has no symbol in error and reads back. -/
theorem test_witness_programmed_image_reads_back :
    symbolErrors (SectorContent.image (.mark 7)) (SectorContent.body (.mark 7)) ≤ 4 ∧
      (SectorContent.image (.mark 7)).length = 146 := by
  constructor
  · rw [SectorContent.image, symbolErrors_codeword]
    exact Nat.zero_le 4
  · rw [SectorContent.image, codeword_length]
    decide

/-- A home candidate, and two spares of one version. -/
def candidates : List Candidate := [⟨7, v2, 0⟩, ⟨4096, v2, 1⟩, ⟨4223, v2, 1⟩]

theorem test_witness_MountWinnerIsBest :
    candidates ≠ [] ∧ winner candidates = some ⟨4223, v2, 1⟩ ∧
      (∀ e ∈ candidates, ∀ f ∈ candidates, e.sector = f.sector → e = f) ∧
      (∀ e ∈ candidates, ∀ f ∈ candidates, e.sector < 4096 → f.sector < 4096 → e = f) := by decide

theorem test_witness_MountDecidesEachBlock :
    winner (candidatesOf 7 (.copy 7 v2 0) []) = some ⟨7, v2, 0⟩ ∧
      winner (candidatesOf 7 .blank [(7, ⟨4096, v2, 0⟩)]) = some ⟨4096, v2, 0⟩ ∧
      winner (candidatesOf 7 .blank []) = none ∧ winner (candidatesOf 7 .mark []) = none ∧
      winner (candidatesOf 7 .unreadable []) = none ∧
      winner (candidatesOf 7 (.copy 8 v2 0) []) = none ∧
      winner (candidatesOf 7 (.copy 7 v2 2) []) = some ⟨7, v2, 2⟩ ∧
      (station .mounting).media.scrub.length < 16 ∧ 16 ≤ (List.replicate 16 7).length ∧
      (station .mounting).repair.list.length < 32 ∧ 32 ≤ (List.replicate 32 7).length ∧
      ((holding .clean [] (station .mounting)).entryOf 7).sector = some 7 ∧
      ((holding .clean [] (station .mounting)).entryOf 7).sector ≠ some 4096 := by decide

theorem test_witness_MountSetsTheClock :
    State.reset.store.map = [] ∧ Finding.copy 7 v2 0 ∈ [Finding.blank, .copy 7 v2 0] := by decide

theorem test_witness_MarkingEndsInListening :
    let marking := fun l => ({ atPort (.retireMark 7) State.reset with mount := ⟨[], l⟩ } : State)
    (marking [7, 9]).media.port = some (.retireMark 7) ∧ (marking [7, 9]).awake = true ∧
      (marking [7, 9]).mount.marking = 7 :: [9] ∧ (marking [7]).mount.marking = 7 :: [] := by decide

theorem test_witness_VerifyFinishesOrRelocates :
    let s := atPort (writeOf (.verifying 7 none) []) (station .online)
    let spare := { s with media := { s.media with spares := [4096, 4100] } }
    let nine := { s with media := { s.media with spares := (List.range 9).map (4096 + ·) } }
    s.live = true ∧ s.media.port = some (writeOf (.verifying 7 none) []) ∧
      verifyResult false (.decoded (SectorContent.body (.copy 7 v2 Data.zero)) 0) = .good ∧
      verifyResult false (.decoded (SectorContent.body (.copy 7 v2 Data.zero)) 4) = .weak ∧
      verifyResult false .blank = .failed ∧
      spare.media.spares.find? (fun k => !([] : List Nat).contains k) = some 4096 ∧
      s.media.spares.find? (fun k => !([] : List Nat).contains k) = none ∧
      (nine.media.spares.filter (· ≠ 4096)).length = 8 ∧ nine.media.spares.length ≠ 8 ∧
      (WriteStage.verifying 4096 (some 7)) = .verifying 4096 (some 7) ∧
      (atPort (writeOf (.retiring 4096 true) [4096]) spare).media.port =
        some (writeOf (.retiring 4096 true) [4096]) ∧
      (atPort (writeOf (.retiring 4096 true) [4096]) spare).media.steps.length = 1 ∧
      spare.media.spares.find? (fun k => !([4096] : List Nat).contains k) = some 4100 ∧
      3 ≤ [4096, 4100, 4101].length := by decide

/-- The second relocation takes its spare when the mark before it is answered, and not before. -/
theorem test_mark_before_spare :
    let s := atPort (writeOf (.verifying 4096 (some 7)) [4096]) (station .online)
    let t := (({ s with media := { s.media with spares := [4100] } } : State).verify true
      (.stored 0))
    t.media.spares = [4100] ∧ t.media.steps = [.mark 7] ∧ t.media.retired = [7] ∧
      (t.answerSteps 1).media.spares = [] ∧
      (t.answerSteps 2).media.steps = [.read 4100] ∧ t.failPort.media.spares = [4100] := by decide

theorem test_witness_WriteCompletionUpdatesTheMap :
    let s := fun w final rest => holding .staged (entry7 .peer .writing :: rest)
      (atPort (writeOf (.ended w final) []) (station .online))
    (s true (some 7) []).live = true ∧ mapWf (s true (some 7) []).store.map = true ∧
      (s false none [entry7 .peer .waiting]).media.port = some (writeOf (.ended false none) []) ∧
      (s false (some 7) []).store.staging = entry7 .peer .writing :: [] ∧
      (atPort (writeOf (.retiring 7 true) []) (station .online)).media.port =
        some (writeOf (.retiring 7 true) []) ∧
      (station .online).media.spares.find? (fun k => !([] : List Nat).contains k) = none ∧
      [4096].find? (fun k => !([] : List Nat).contains k) ≠ none := by decide

theorem test_witness_SectorReadCompletes :
    let s := atPort (.sectorRead ⟨.client, 0, 7⟩ 7 v2) (holding .clean [] (station .online))
    let full := holding .clean (List.replicate 16 (entry7 .peer .waiting)) (station .online)
    let body := SectorContent.body (.copy 7 v2 Data.zero)
    s.live = true ∧ (s.entryOf 7).condition = .clean ∧ 7 ∉ s.media.scrub ∧
      readOutcome 7 v2 (.decoded body 0) = .clean Data.zero ∧
      readOutcome 7 v2 (.decoded body 1) = .corrected Data.zero ∧
      readOutcome 7 v2 (.decoded body 2) = .weak Data.zero ∧
      readOutcome 7 v2 .blank = .unreadable ∧
      (s.offer 7 v2 Data.zero .scrub).2 = .accept ∧ s.media.scrub.length < 16 ∧
      ((holding .staged [] s).entryOf 7).condition ≠ .clean ∧
      (full.entryOf 7).condition = .clean ∧ (station .online).repair.list.length < 32 ∧
      32 ≤ (List.replicate 32 9).length := by decide

/-- Sixteen staging entries of other blocks: a SCRUB offer finds no room. -/
theorem test_witness_scrub_offer_busy :
    ((holding .clean ((List.range 16).map fun n => ⟨100 + n, v2, Data.zero, .peer, .waiting⟩)
      (station .online)).offer 7 v2 Data.zero .scrub).2 = .busy := by decide

theorem test_witness_ScrubReadCompletes :
    let s := atPort (.scrubRead 7 7 v2) (holding .clean [] (station .online))
    s.live = true ∧ s.media.port = some (.scrubRead 7 7 v2) ∧
      (ReadOutcome.weak Data.zero).data = some Data.zero ∧
      (s.offer 7 v2 Data.zero .scrub).2 = .accept := by decide

/-- A read of block 7 with the given state. -/
def readOf7 (state : ReadState) : ReadEntry :=
  { ReadEntry.empty with state := state, tag := 3#8, block := 7, target := some 2 }

/-- Read entry 0 is as given. -/
def reading (e : ReadEntry) (s : State) : State := s.setRead 0 e

theorem test_witness_ReportFinishesTheRead :
    let s := fun c => reading { readOf7 .reading with request := some 4 }
      (holding c [] (station .online))
    ((s .lost).readEntry 0).state = .reading ∧ ((s .lost).readEntry 0).request = some 4 ∧
      (∀ j, j ≠ 0 → ((s .lost).readEntry j).request ≠ some 4) ∧
      ((s .staged).entryOf 7).condition = .staged ∧
      ((s .lost).entryOf 7).condition = .lost ∧
      ((station .online).entryOf 7).condition = .unwritten := by decide

theorem test_witness_PortFaultEntersFaulted :
    let s := atPort (.scrubRead 7 7 v2) (station .online)
    let mark := { s with media := { s.media with
      port := some (writeOf (.ended true (some 7)) [7]), steps := [.mark 6] } }
    s.awake = true ∧ s.member.phase ≠ .faulted ∧ s.media.steps ≠ [] ∧ mark.media.steps ≠ [] ∧
      s.media.stepWindow = some 0 ∧ (station .online).media.stepWindow ≠ some 0 ∧
      (station .online).media.steps = [] ∧ (heldInReset s).released = false := by decide

/-- A port fault reported at a free port, or where an ended write awaits its completion, enters
FAULTED with reason MEDIA. -/
theorem test_port_fault_without_step :
    let ended := { station .online with media := { (station .online).media with
      port := some (writeOf (.ended true (some 7)) []) } }
    exec .portFault (station .online) = .next ((station .online).enterFaulted .media) ∧
      exec .portFault ended = .next ((station .online).enterFaulted .media) ∧
      ((station .online).enterFaulted .media).member.phase = .faulted :=
  ⟨rfl, rfl, by decide⟩

theorem test_witness_ArbiterChoosesByClass :
    let head := holding .staged [entry7 .peer .waiting] (station .online)
    let asked := fun s : State => { s with media := { s.media with
      clientRequests := [⟨.client, 0, 7⟩], engineRequests := [⟨.serve, 1, 7⟩], passedOver := 1 } }
    let scrub := { station .online with media := { (station .online).media with scrub := [7] } }
    head.headWaiting = true ∧ head.media.clientRequests = [] ∧ head.media.engineRequests = [] ∧
      head.media.port = none ∧ (asked head).media.clientRequests = ⟨.client, 0, 7⟩ :: [] ∧
      (asked head).media.passedOver ≠ 2 ∧ scrub.headWaiting = false ∧
      scrub.media.scrub = 7 :: [] ∧ scrub.store.staging.length < 16 ∧
      (station .online).media.scrub = [] ∧ (atPort (.scanRead 3) scrub).media.port ≠ none ∧
      { head with media := { head.media with passedOver := 2 } }.media.passedOver = 2 ∧
      ((holding .clean [] (station .online)).entryOf 7).condition = .clean := by decide

theorem test_witness_WriteIsAimedAtItsTarget :
    let s := holding .staged [entry7 .peer .waiting] (station .online)
    let bare := { s with store := { s.store with map := [] } }
    let retired := { bare with media := { bare.media with retired := [7], spares := [4096] } }
    let none_ := { retired with media := { retired.media with spares := [] } }
    s.live = true ∧ s.store.staging = entry7 .peer .waiting :: [] ∧
      (s.entryOf 7).sector = some 7 ∧ (bare.entryOf 7).sector = none ∧
      7 ∉ bare.media.retired ∧ 7 ∈ retired.media.retired ∧
      retired.media.spares = 4096 :: [] ∧ none_.media.spares = [] := by decide

/-! ## Witnesses: versions and acceptance -/

theorem test_witness_VersionOrderIsTotal :
    v2 ≠ .nil ∧ v2.seq ≠ 0#32 ∧ newer ⟨7#32, 0⟩ ⟨6#32, 0⟩ = true ∧
      newer ⟨6#32, 0⟩ v2 = true ∧ (⟨0#32, 3⟩ : Version).seq = 0#32 := by decide

theorem test_witness_OffersAreJudgedByVersion :
    let s := fun c l => holding c l (station .online)
    let others := (List.range 16).map fun n =>
      (⟨100 + n, v2, Data.zero, .peer, .waiting⟩ : StagingEntry)
    ((s .clean []).offer 7 ⟨6#32, 2⟩ Data.zero .peer).2 = .accept ∧
      ((s .lost []).offer 7 v2 Data.zero .repair).2 = .accept ∧
      ((s .clean others).offer 7 ⟨6#32, 2⟩ Data.zero .peer).2 = .busy ∧
      ((s .clean []).offer 7 v2 Data.zero .push).2 = .duplicate ∧
      ((s .clean []).offer 7 ⟨4#32, 7⟩ Data.zero .relay).2 = .stale v2 ∧
      ((s .clean []).offer 4096 v2 Data.zero .peer).2 = .stale .nil ∧
      ((station .online).offer 7 ⟨0#32, 3⟩ Data.zero .peer).2 = .duplicate := by decide

/-- A state of one CLEAN block meets the invariants of the map. -/
theorem test_witness_ScrubOfferIsJudgedByItself :
    ∃ s : State, s.MapSound ∧ s.Inv ∧ (s.entryOf 7).condition = .clean ∧
      (s.entryOf 7).version = v2 ∧ s.store.staging.length < 16 ∧ (s.entryOf 8).condition ≠ .clean := by
  have other : ∀ b, b ≠ 7 → (holding .clean [] (station .online)).entryOf b = .unwritten := by
    intro b hb
    simp [holding, State.entryOf, lookupKey, Ne.symm hb]
  refine ⟨holding .clean [] (station .online), ?_, ?_, by decide, by decide, by decide, by decide⟩
  · refine ⟨fun b h => ?_, fun b h => ?_, fun b h => ?_, fun b h => ?_, ?_, ?_, by decide, ?_, ?_,
      ?_, ?_, ?_⟩
    · by_cases hb : b = 7
      · subst hb
        decide
      · rw [other b hb] at h
        cases h
    · by_cases hb : b = 7
      · subst hb
        exact absurd h (by decide)
      · rw [other b hb] at h
        cases h
    · by_cases hb : b = 7
      · subst hb
        exact absurd h (by decide)
      · exact other b hb
    · by_cases hb : b = 7
      · subst hb
        exact absurd h (by decide)
      · rw [other b hb] at h
        cases h
    · intro e he
      cases he
    · intro e he
      cases he
    · intro op h
      cases h
    · intro op h
      cases h
    · intro n h
      cases h
    · intro b h
      cases h
    · intro b h
      cases h
  · exact ⟨by decide, by decide, by decide, by decide, by decide, by decide, by decide, by decide,
      fun h => absurd rfl h, by decide, fun f h => (by cases h), by decide, by decide, by decide,
      fun n h => (by cases h), fun _ => ⟨rfl, rfl⟩, by decide, by decide, fun l r h => (by cases h)⟩

/-- The acceptance of a newer version ends the fetch slot's work, is a collecting read's own report,
and is taken by a push not sent. -/
theorem test_acceptance_reaches_the_units :
    let slot := { FetchSlot.idle with state := .fetchAwaiting, block := some 7, target := some 2 }
    let s := reading (readOf7 .queryAwaiting) (withFetch slot (withCursor { Cursor.idle with
      state := .pushing, server := some 2, pushes := [⟨7, v2, .notSent⟩] }
        (holding .lost [] (station .catchingUp))))
    let s := { s with repair := { s.repair with list := [7] } }
    let t := (s.offer 7 ⟨6#32, 2⟩ Data.zero .repair).1
    (s.offer 7 ⟨6#32, 2⟩ Data.zero .repair).2 = .accept ∧ 7 ∈ s.repair.list ∧
      s.repair.fetch.block = some 7 ∧ (s.line.queue.map (·.id)).Nodup ∧ s.line.waiting = [] ∧
      t.repair.fetch = FetchSlot.idle ∧
      ((t.readEntry 0).reports.get s.own) = some ⟨⟨6#32, 2⟩, true⟩ ∧
      t.repair.cursor.pushes = [⟨7, ⟨6#32, 2⟩, .notSent⟩] := by decide

theorem test_witness_AcceptanceStagesTheVersion :
    let s := holding .clean [entry7 .peer .waiting] (station .online)
    (s.offer 7 ⟨6#32, 2⟩ Data.zero .peer).2 = .accept ∧
      s.store.staging = [] ++ entry7 .peer .waiting :: [] ∧
      ((holding .clean [] (station .online)).offer 7 ⟨6#32, 2⟩ Data.zero .peer).2 = .accept := by
  decide

/-! ## Witnesses: the line -/

theorem test_witness_AttemptStartsAndEnds :
    let s := fun f => queued [fetchFrame f] (station .online)
    (s .unsent).live = true ∧ (s .unsent).sending = none ∧ (station .faulted).live = false ∧
      (station .online).line.queue = [] ∧ (s (.arbitrated true)).sending ≠ none ∧
      (s .unsent).line.queue = fetchFrame .unsent :: [] ∧
      (s (.arbitrated true)).sending = some (fetchFrame (.arbitrated true)) ∧
      (s (.arbitrated false)).sending = some (fetchFrame (.arbitrated false)) ∧
      (s (.arbitrated false)).line.replacement = none ∧
      ({ s (.arbitrated false) with line := { (s (.arbitrated false)).line with
        replacement := some (heartbeatFrame 0 .unsent).frame } } : State).line.replacement =
          some (heartbeatFrame 0 .unsent).frame := by decide

theorem test_witness_MismatchMakesTheFrameUnsent :
    let s := fun q => queued q (station .online)
    (s [fetchFrame (.transmitted true)]).sending = some (fetchFrame (.transmitted true)) ∧
      (s [fetchFrame (.transmitted false)]).sending = some (fetchFrame (.transmitted false)) ∧
      (fetchFrame (.transmitted false)).frame.isHeartbeat = false ∧
      (heartbeatFrame 0 (.transmitted false)).frame.isHeartbeat = true ∧
      (s [heartbeatFrame 0 .unsent]).otherHeartbeat 0 = none ∧
      (s [heartbeatFrame 0 .unsent, heartbeatFrame 1 .unsent]).otherHeartbeat 0 =
        some (1, (heartbeatFrame 1 .unsent).frame) := by decide

theorem test_witness_CompletionStartsTheWindow :
    let s := queued [fetchFrame (.transmitted false)]
      (reading { readOf7 .fetchSending with frames := [0] } (station .online))
    let won := queued [fetchFrame (.arbitrated false)] (station .online)
    s.live = true ∧ s.sending = some (fetchFrame (.transmitted false)) ∧
      0 ∈ (s.readEntry 0).frames ∧ won.live = true ∧
      won.sending = some (fetchFrame (.arbitrated false)) ∧ won.line.replacement = none ∧
      ({ won with line := { won.line with
        replacement := some (heartbeatFrame 1 .unsent).frame } } : State).sending =
          some (fetchFrame (.arbitrated false)) := by decide

/-- A frame was on the line as the station entered LISTENING. -/
def ignoringFrame (s : State) : State := { s with line := { s.line with ignoring := true } }

theorem test_witness_Hears : (station .online).Hears ∧ (station .listening).Hears :=
  ⟨⟨by decide, by decide⟩, ⟨by decide, by decide⟩⟩

theorem test_witness_DiscardCountSaturates :
    (station .online).live = true ∧ (station .faulted).live = false ∧
      (ignoringFrame (station .listening)).live = true ∧
      (ignoringFrame (station .listening)).line.ignoring = true ∧
      readLine [false, false, false, false, false, false] = .broken ∧
      Instr.endsReception 1 (.receptionError [false, false, false, false, false, false]) = true ∧
      Instr.endsReception 1 (.fetchReceived 2 1 7#16) = true ∧
      judgeFrame 1 (rawFrame [0#8, 0#8] 0#16) = .discarded ∧ attemptOk 0#8 = false ∧
      attemptOk 5#8 = false ∧ (2 : StationNo) ≠ (station .online).own := by decide

theorem test_witness_OwnNumberEntersFaulted :
    (station .online).own = 1 ∧
      judgeFrame 1 (Frame.raw ⟨1, some 5, .fetch 7#16⟩) = .foreign := by decide

theorem test_witness_PlacesGoByClass :
    let full := queued ((List.range 16).map fun n => heartbeatFrame n .unsent) (station .online)
    let waits := { full with line := { full.line with waiting := [⟨20, ⟨1, some 2, .fetch 7#16⟩⟩] } }
    (station .online).line.queue.length < 16 ∧ 16 ≤ full.line.queue.length ∧
      (Body.notHeld 7#16).cls = 0 ∧ (Body.fetch 7#16).cls ≠ 0 ∧
      (∃ w, w ∈ waits.line.waiting ∧ w.id = 20) ∧ (∀ w, w ∈ waits.line.waiting → w.id ≠ 0) ∧
      full.line.queue.find? (·.id = 0) = some (heartbeatFrame 0 .unsent) := by decide

theorem test_witness_HeartbeatCarriesTheMoment :
    let s := fun q => ({ queued q (station .online) with
      member := { (station .online).member with heartbeatDue := true } } : State)
    (s []).live = true ∧ (s []).member.heartbeatDue = true ∧
      (s []).member.phase.run = some .online ∧
      (∃ q, q ∈ (s [heartbeatFrame 0 .unsent]).line.queue ∧ q.frame.isHeartbeat = true ∧
        q.state = .unsent) ∧
      (heartbeatFrame 0 (.arbitrated false)).state = .arbitrated false := by decide

theorem test_witness_FramesReadBackWhole :
    Frame.wellFormed ⟨3, some 5, .fetch 7#16⟩ = true ∧
      Frame.wellFormed ⟨3, none, .query 7#16 4#8 0xFF#8⟩ = true := by decide

/-! ## Witnesses: received frames -/

/-- The station gets frames of station 2, which stays ONLINE in its table, in every phase of the
line. -/
theorem test_witness_GetsFrom : ∀ p : RunPhase, (station (phaseOf p)).GetsFrom 2 := by
  intro p
  cases p <;> exact ⟨⟨by decide, by decide⟩, by decide, by decide⟩

theorem test_witness_HeartbeatShowsThePeer :
    let s := station .online
    let conflicted := fun r => s.setPeer 3 ⟨.conflict, none, 0#32, some r, some 24⟩
    s.live = true ∧ (2 : StationNo) ≠ s.own ∧ (3#8).toNat = s.groupSize ∧
      (s.peer 2).state = .present ∧ (s.peer 2).reported = some .online ∧
      (s.peer 3).state = .unheard ∧ ((conflicted .group).peer 3).state = .conflict ∧
      ((conflicted .group).peer 3).reason = some .group := by decide

theorem test_witness_EveryFrameRefreshesItsSender :
    let s := station .online
    let t := s.setPeer 3 ⟨.conflict, none, 0#32, some .group, some 24⟩
    s.live = true ∧ (s.peer 3).state = .unheard ∧ (s.peer 2).state = .present ∧
      (0 : StationNo) ≠ s.own ∧ (t.peer 3).state = .conflict ∧ attemptOk 1#8 = true := by decide

theorem test_witness_UpdateIsOfferedAndAcknowledged :
    let s := station .online
    (((s.heard 2).learn 5#32).offer 7 v2 Data.zero .peer).2 = .accept ∧ attemptOk 4#8 = true ∧
      hasStation 0xFE#8 s.own = true ∧ v2.origin ≠ s.own ∧ hasStation 0xFD#8 s.own = false := by
  decide

theorem test_witness_PushIsRelayedAndAcknowledged :
    (((station .online).heard 2).learn 5#32).offer 7 v2 Data.zero .push =
      ((((station .online).heard 2).learn 5#32).accept 7 v2 Data.zero .push, .accept) := by rfl

/-- A proposal of block 7 at version (6, 1) that awaits its ACKs. -/
def proposal7 (attempt : Nat) : Proposal :=
  ⟨.awaiting, 3#8, 7, ⟨6#32, 1⟩, Data.zero, 2#8, attempt, some 0, none, none, []⟩

theorem test_witness_AckCountsTowardsTheQuorum :
    let h := ((((station .online).setProposal 0 (proposal7 1)).heard 2).learn 6#32)
    (h.proposal 0).running = true ∧ (h.proposal 0).block = (7#16).toNat ∧
      (h.proposal 0).version = ⟨6#32, 1⟩ ∧
      (∀ j, (h.proposal j).running = true → j = 0) ∧
      h.quorum ≤ stationCount (addStation (h.proposal 0).acks 2) ∧
      stationCount (addStation 0#8 2) < h.quorum := by decide

theorem test_witness_QueryIsAnsweredFromTheMap :
    ((station .isolated).heard 2).member.phase = .isolated ∧
      ((station .listening).heard 2).member.phase = .listening ∧
      hasStation 0x02#8 (station .online).own = true := by decide

/-- A read of block 7 that has a held report of station 2 and one of station 3. -/
def reported7 : ReadEntry :=
  { readOf7 .queryAwaiting with
    reports := (ReadEntry.empty.reports.set 2 (some ⟨v2, true⟩)).set 3 (some ⟨⟨6#32, 3⟩, true⟩) }

theorem test_witness_ReportIsEntered :
    let s := reading reported7 (station .online)
    let late := reading (readOf7 .queryAwaiting) (station .online)
    s.formCandidates (s.readEntry 0) = [3, 2] ∧ late.formCandidates (late.readEntry 0) = [] ∧
      s.pickTarget [3, 2] 0#8 = (addStation 0#8 3, some 2) ∧ s.presentPeer 3 = false ∧
      s.presentPeer 2 = true ∧ hasStation 0#8 2 = false ∧
      s.pickTarget [3] 0#8 = (addStation 0#8 3, none) := by decide

theorem test_witness_RequestsJoinTheServeQueue :
    let r : ServeRequest := ⟨2, .fetch 7#16⟩
    let s := fun n => ({ station .online with repair := { (station .online).repair with
      serveQueue := (List.range n).map fun k => ⟨3, .fetch (BitVec.ofNat 16 k)⟩ } } : State)
    ((station .online).heard 2).member.phase = .online ∧
      ((station .listening).heard 2).member.phase = .listening ∧
      (s 3).repair.serveQueue.length < 4 ∧ 4 ≤ (s 4).repair.serveQueue.length ∧
      (∀ q, q ∈ (s 4).repair.serveQueue → r.same q = false) ∧ r.same r = true := by decide

theorem test_witness_RepairAnswersItsReader :
    let read := reading (readOf7 .fetchAwaiting) (station .online)
    let slot := withFetch { FetchSlot.idle with state := .fetchAwaiting, block := some 7,
                                                target := some 2 } (station .online)
    let cursor := withCursor { Cursor.idle with state := .awaitingRange, server := some 2 }
      (station .catchingUp)
    let twice := read.setRead 1 { readOf7 .fetchSending with tag := 4#8 }
    let both := withCursor { Cursor.idle with state := .awaitingRange, server := some 2 }
      (withFetch { FetchSlot.idle with state := .fetchAwaiting, block := some 7,
                                       target := some 2 } (station .catchingUp))
    (((read.heard 2).learn 5#32).readEntry 0).state = .fetchAwaiting ∧
      (((twice.heard 2).learn 5#32).readEntry 0).target = some 2 ∧
      (((twice.heard 2).learn 5#32).readEntry 1).target = some 2 ∧
      ((both.heard 2).learn 5#32).slotMatches 2 7 = true ∧
      ((both.heard 2).learn 5#32).cursorMatches 2 7 = true ∧
      ((read.heard 2).learn 5#32).slotMatches 2 7 = false ∧
      ((slot.heard 2).learn 5#32).slotMatches 2 7 = true ∧
      slot.repair.fetch.block = some 7 ∧ slot.repair.fetch.target = some 2 ∧
      read.repair.fetch.block = none ∧ slot.fetchEligible 2 = true ∧
      slot.fetchEligible 3 = false ∧ addStation 0#8 2 ≠ 0#8 ∧
      ((slot.heard 2).learn 5#32).cursorMatches 2 7 = false ∧
      ((cursor.heard 2).learn 5#32).cursorMatches 2 63 = true ∧
      ((cursor.heard 2).learn 5#32).cursorMatches 2 64 = false := by decide

theorem test_witness_NotHeldMovesToTheNextTarget :
    let s := fun stage => serving (jobOf (.fetch 7#16) 0 stage)
      (withCursor { Cursor.idle with state := .awaitingRange, server := some 2 }
        (station .catchingUp))
    (s .ready).repair.serve = some (jobOf (.fetch 7#16) 0 .ready) ∧
      (jobOf (.fetch 7#16) 0 .ready).request.requester = 2 ∧
      (jobOf (.fetch 7#16) 0 .ready).request.requester ≠ 3 ∧
      (s .ready).repair.cursor.state ≠ .idle ∧ (s .ready).repair.cursor.server = some 2 ∧
      (station .online).repair.cursor.state = .idle ∧
      (s (.reading 4)).repair.serve = some (jobOf (.fetch 7#16) 0 (.reading 4)) ∧
      (s (.placing 4 true)).repair.serve = some (jobOf (.fetch 7#16) 0 (.placing 4 true)) := by
  decide

theorem test_witness_cursor_at_work :
    let s := fun pushes work c => withCursor { Cursor.idle with
      state := .pushing, server := some 2, pushes := pushes, work := work, range := 63 }
      (holding c [] (station .catchingUp))
    let none_ := s [⟨7, v2, .settled⟩, ⟨7, v2, .notSent⟩] .ready .clean
    none_.repair.cursor.pushes = [⟨7, v2, .settled⟩] ++ ⟨7, v2, .notSent⟩ :: [] ∧
      (none_.entryOf 7).condition = .clean ∧
      ((s [] .ready .staged).entryOf 7).condition = .staged ∧
      ((s [] .ready .lost).entryOf 7).condition = .lost ∧
      (s [] .ready .clean).cursorStep = some (s [] .ready .clean).rangeDone ∧
      (s [⟨7, v2, .sent⟩] .ready .clean).cursorStep = none ∧
      (s [⟨7, v2, .refused⟩] .ready .clean).cursorStep.isSome = true ∧
      63 ≤ (s [] .ready .clean).repair.cursor.range ∧ (62 : Nat) < 63 ∧
      (s [] .ready .clean).quorum ≤ (s [] .ready .clean).visible ∧
      State.visible { s [] .ready .clean with member := Membership.reset } <
        (s [] .ready .clean).quorum ∧
      (s [⟨7, v2, .notSent⟩] (.placing 4) .clean).repair.cursor.work = .placing 4 ∧
      (s [⟨7, v2, .notSent⟩] (.reading 4) .clean).repair.cursor.work = .reading 4 := by decide

theorem test_witness_RangeDoneFormsThePushes :
    let s := withCursor { Cursor.idle with state := .awaitingRange, server := some 2, range := 63 }
      (station .catchingUp)
    (s.heard 2).repair.cursor.state = .awaitingRange ∧
      (s.heard 2).repair.cursor.server = some 2 ∧
      (s.heard 2).repair.cursor.range = (63 : Fin 64).val ∧
      offsetCount (s.heard 2).repair.cursor.counted = (0#8).toNat := by decide

theorem test_witness_BusyAndNotServingAnswers :
    let s := fun c => withCursor { Cursor.idle with state := c, server := some 2 }
      (station .catchingUp)
    ((s .awaitingRange).heard 2).repair.cursor.state = .awaitingRange ∧
      ((s .digestBackoff).heard 2).repair.cursor.state = .digestBackoff ∧
      ((s .digestSending).heard 2).repair.cursor.range = (0 : Fin 64).val := by decide

/-! ## Witnesses: membership and the expiries -/

theorem test_witness_JoinTestDecides :
    let alone := { station .listening with member := { (station .listening).member with
      peers := Membership.reset.peers } }
    let founder := alone.setPeer 2 ⟨.present, some .listening, 0#32, none, some 24⟩
    ((station .listening).peer 2).reported = some .online ∧ alone.joinTest = .stay ∧
      founder.joinTest = .found ∧ founder.quorum ≤ founder.visible := by decide

theorem test_witness_ListenAndSilenceExpire :
    let due := { station .listening with
      member := { (station .listening).member with listenWindow := some 0 } }
    let silent := fun st => (station .online).setPeer 2 ⟨st, none, 0#32, none, some 0⟩
    due.live = true ∧ due.member.listenWindow = some 0 ∧ due.joinTest = .catchUp 2 ∧
      ((silent .present).peer 2).silence = some 0 ∧
      ((silent .conflict).peer 2).state ≠ .present := by decide

theorem test_witness_phase_test :
    let alone := fun s : State => { s with member := { s.member with
      peers := Membership.reset.peers } }
    let origin := fun o => ({ station .catchingUp with member :=
      { (station .catchingUp).member with origin := some o } } : State)
    (station .listening).member.listenWindow = none ∧
      ({ station .listening with member := { (station .listening).member with
        listenWindow := some 3 } } : State).member.listenWindow ≠ none ∧
      (alone (station .catchingUp)).onlinePeer = none ∧
      (station .catchingUp).onlinePeer = some 2 ∧
      (alone (station .online)).visible < (station .online).quorum ∧
      (station .isolated).quorum ≤ (station .isolated).visible ∧
      (alone (station .isolated)).visible < (station .isolated).quorum ∧
      (station .online).quorum ≤ (station .online).visible ∧
      (origin .isolated).member.origin = some .isolated ∧
      (origin .listening).member.origin ≠ some .isolated ∧
      (alone (station .isolated)).joinTest = .stay ∧
      (station .isolated).joinTest = .catchUp 2 ∧
      (((station .online).setProposal 0 (proposal7 1)).proposal 0).running = true ∧
      (station .online).repair.serve = none ∧
      (serving (jobOf (.fetch 7#16) 0 .ready) (station .online)).repair.serve =
        some (jobOf (.fetch 7#16) 0 .ready) ∧
      (jobOf (.digest 3 (Vector.replicate 64 .nil)) 0 .ready).request.kind =
        .digest 3 (Vector.replicate 64 .nil) := by decide

/-- The notice ISOLATED answers a DIGEST being served, and one that waits, with NOT_SERVING. -/
theorem test_isolated_refuses_digests :
    let kind := ServeKind.digest 3 (Vector.replicate 64 .nil)
    let s := serving (jobOf kind 5 .ready) (station .online)
    let s := { s with repair := { s.repair with
      serveQueue := [⟨3, .fetch 7#16⟩, ⟨3, kind⟩] } }
    let t := s.enterPhase .isolated
    t.repair.serve = none ∧ t.repair.serveQueue = [⟨3, .fetch 7#16⟩] ∧
      t.line.queue.map (·.frame) = [⟨1, some 2, .notServing 3⟩, ⟨1, some 3, .notServing 3⟩] := by
  decide

theorem test_witness_AckWindowTriesFourTimes :
    let s := fun n => (station .online).setProposal 0 (proposal7 n)
    (s 3).live = true ∧ ((s 3).proposal 0).state = .awaiting ∧
      ((s 3).proposal 0).window = some 0 ∧ ((s 3).proposal 0).attempt < 4 ∧
      4 ≤ ((s 4).proposal 0).attempt := by decide

theorem test_witness_ReadWindowsExpire :
    let s := fun state attempt => reading { readOf7 state with
      attempt := attempt, queryWindow := some 0, fetchWindow := some 0, backOff := some 0
      candidates := [2] } (station .online)
    (s .queryAwaiting 3).live = true ∧ ((s .queryAwaiting 3).readEntry 0).attempt < 4 ∧
      4 ≤ ((s .queryAwaiting 4).readEntry 0).attempt ∧
      ((s .fetchAwaiting 1).readEntry 0).fetchWindow ≠ none ∧
      (s .fetchAwaiting 1).waits ((s .fetchAwaiting 1).readEntry 0).frames = false ∧
      ({ s .fetchAwaiting 1 with line := { (s .fetchAwaiting 1).line with
        waiting := [⟨4, (fetchFrame .unsent).frame⟩] } } : State).waits [4] = true ∧
      (s .fetchAwaiting 1).pickTarget [2] 0#8 = (0#8, some 2) ∧
      (s .fetchAwaiting 1).pickTarget [2] (addStation 0#8 2) = (addStation 0#8 2, none) := by
  decide

theorem test_witness_FetchSlotWindowsExpire :
    let s := fun state target => withFetch { FetchSlot.idle with
      state := state, block := some 7, target := target, window := some 0, backOff := some 0 }
      (station .online)
    (s .fetchAwaiting (some 3)).live = true ∧
      ((s .fetchAwaiting (some 3)).peer 2).reported = some .online ∧
      hasStation (addStation 0#8 3) 2 = false ∧ hasStation (addStation 0#8 2) 2 = true ∧
      (s .peerWait none).repair.fetch.backOff = some 0 ∧
      (station .online).repair.fetch.state = .idle ∧ (station .online).repair.list = [] ∧
      ({ station .online with repair := { (station .online).repair with
        list := [7] } } : State).repair.list = 7 :: [] ∧
      (s .idle none).fetchEligible 2 = true ∧ (s .idle none).fetchEligible 3 = false ∧
      (s .backOff (some 2)).repair.fetch.target = some 2 ∧
      (s .fetchAwaiting (some 2)).repair.fetch.window ≠ none ∧
      (s .fetchAwaiting (some 2)).waits (s .fetchAwaiting (some 2)).repair.fetch.frames = false ∧
      { (s .fetchAwaiting (some 2)).repair.fetch with window := none }.window = none := by decide

theorem test_witness_CursorWindowsExpire :
    let s := fun state pushes => withCursor { Cursor.idle with
      state := state, server := some 2, pushes := pushes, rangeWindow := some 0
      pushDeadline := some 0, backOff := some 0, rest := some 0 } (station .catchingUp)
    (s .awaitingRange []).live = true ∧ (s .awaitingRange []).repair.cursor.rangeWindow = some 0 ∧
      (∃ p, p ∈ (s .pushing [⟨7, v2, .sent⟩]).repair.cursor.pushes ∧ p.state ≠ .settled) ∧
      (∀ p, p ∈ (s .pushing [⟨7, v2, .settled⟩]).repair.cursor.pushes → p.state = .settled) ∧
      (s .digestBackoff []).repair.cursor.backOff = some 0 ∧
      (s .resting []).repair.cursor.rest = some 0 ∧ (s .resting []).repair.cursor.attempt < 4 ∧
      ((queued [fetchFrame .unsent] (s .pushing [])).line.queue.map (·.id)).Nodup ∧
      { (s .pushing []).repair.cursor with attempt := 4 }.attempt = 4 ∧
      (s .pushing []).peerReports 2 .online = true ∧ (s .pushing []).repair.cursor.server = some 2 ∧
      { (s .pushing []).repair.cursor with work := .reading 4 }.work = .reading 4 ∧
      (0 : Fin 64).val = (s .pushing []).repair.cursor.range ∧
      (fetchFrame .unsent).frame.body = .fetch 7#16 ∧
      (station .online).repair.cursor.state = .idle := by decide

/-! ## Witnesses: the client port -/

theorem test_witness_PortReady :
    (station .online).PortReady ∧ State.reset.PortReady ∧
      (inTransaction (.opened [0x60#8, 0#8, 0#8] .silent) (station .online)).PortReady :=
  ⟨⟨by decide, .inl rfl⟩, ⟨by decide, .inl rfl⟩, ⟨by decide, .inr ⟨_, rfl⟩⟩⟩

theorem test_witness_TransactionsOpenAndClose :
    packetWellFormed [0x03#8, 1#8] = false ∧ knownCommand 0#8 = false ∧
      knownCommand 6#8 = false ∧ (heldInReset (station .online)).released = false ∧
      (waitingForRestart (station .online)).released = true ∧
      (waitingForRestart (station .online)).control.restarting = true ∧
      (inTransaction .abandoned (station .online)).client.transaction = .abandoned ∧
      (inTransaction .ignored (station .online)).client.transaction = .ignored ∧
      (inTransaction (.opened [] .silent) (station .online)).client.transaction =
        .opened [] .silent ∧ (station .online).released = true ∧
      (inTransaction (.opened [] (.statusBlock [])) (station .online)).client.transaction =
        .opened [] (.statusBlock []) := by decide

/-- STATUS drives SDO until the rise of CSn, and not after it. -/
theorem test_status_releases_sdo :
    let s := inTransaction (.opened [0x60#8, 1#8, 2#8] (.statusBlock [3#8])) (station .online)
    s.sdo 3 = some 3#8 ∧ s.sdo 4 = some 0xFF#8 ∧
      exec (.status true) s = .next s.atRise ∧ s.atRise.sdo 3 = none :=
  ⟨by decide, by decide, rfl, by decide⟩

theorem test_witness_SubmitWriteIsJudged :
    let s := station .online
    let v : Version := ⟨s.store.clock + 1#32, s.own⟩
    s.member.phase = .online ∧ (s.proposal 0).state = .free ∧ s.tagInUse 3#8 = false ∧
      (s.setProposal 0 (proposal7 1)).tagInUse 3#8 = true ∧ ¬ 4096 ≤ (4095#16).toNat ∧
      4096 ≤ (4096#16).toNat ∧ s.store.clock ≠ 0xFFFFFFFF#32 ∧
      (s.offer 4095 v Data.zero .localWrite).2 = .accept ∧ 1 < s.quorum ∧
      State.reset.quorum = 1 := by decide

theorem test_witness_SubmitReadIsJudged :
    let s := holding .clean [] (station .online)
    s.tagInUse 3#8 = false ∧ (s.readEntry 0).state = .free ∧
      (s.entryOf 7).condition = .clean ∧ (s.entryOf 8).condition = .unwritten ∧
      1 < s.quorum := by decide

theorem test_witness_AbortEndsItsEntry :
    let s := (station .online).setProposal 0 (proposal7 1)
    let t := reading (readOf7 .fetchAwaiting) (station .online)
    s.proposalOf 3#8 = some 0 ∧ (s.proposal 0).running = true ∧ t.proposalOf 3#8 = none ∧
      t.readOf 3#8 = some 0 ∧ (t.readEntry 0).state ≠ .finished ∧
      (station .online).tagInUse 3#8 = false := by decide

theorem test_witness_TakeAndEventsRemoveTheirRecord :
    let record : CompletionRecord := .write 3#8 .ok v2 .online
    let s := inTransaction (.opened [] (.completion (some record))) (station .online)
    let e := inTransaction (.opened [] (.event (.dropped ⟨2, some .phase⟩ ⟨1, some .phase⟩)))
      (station .online)
    s.awake = true ∧ 8 < 3 + record.bytes.length ∧ 3 + record.bytes.length ≤ 12 ∧
      e.client.transaction ≠ .closed ∧
      (inTransaction (.opened [] (.completion none)) (station .online)).awake = true ∧
      (inTransaction (.opened [] (.event .marker)) (station .online)).awake = true ∧
      (inTransaction (.opened [] .silent) (station .online)).client.transaction =
        .opened [] .silent ∧ (station .online).client.transaction = .closed ∧
      (EventRecord.bytes ⟨.phase, .none, .phase .online, 1⟩).length = 6 := by decide

/-- An event merges, joins or is dropped; a held record takes part in no merge, and a short EVENTS
merges the newer one into it. -/
theorem test_witness_events_raised :
    let phase := fun n : Nat => (⟨.phase, .none, .phase .online, n⟩ : EventRecord)
    let port := fun (l : List EventRecord) (t : Transaction) =>
      ({ ClientPort.reset t with events := l } : ClientPort)
    let held := Transaction.opened [] (.event (.ordinary (phase 1)))
    let full := (List.range 16).map fun b => (⟨.scrubFull, .block b, .none, 1⟩ : EventRecord)
    ((port [phase 255] .closed).raise .phase .none (.phase .faulted)).events =
        [⟨.phase, .none, .phase .faulted, 255⟩] ∧
      ((port [phase 1] held).raise .phase .none (.phase .online)).events = [phase 1, phase 1] ∧
      ((port [phase 1, phase 1] held).raise .phase .none (.phase .online)).events =
        [phase 1, phase 2] ∧
      16 ≤ full.length ∧
      ((port full .closed).raise .phase .none .none).dropped = ⟨1, some .phase⟩ ∧
      ((port full (.opened [] (.event (.dropped ⟨2, none⟩ ⟨255, some .scrubFull⟩)))).raise .phase
        .none .none).transaction =
          .opened [] (.event (.dropped ⟨2, none⟩ ⟨255, some .scrubFull⟩)) ∧
      mergeHeld [phase 200, phase 100] = [phase 255] := by decide

/-! ## Witnesses: the invariants -/

/-- The state of one CLEAN block takes a step. -/
theorem test_witness_StepKeepsTheInvariant :
    ∃ s t : State, s.Inv ∧ s.MapSound ∧ s.ClockBound ∧ step s = .next t := by
  refine ⟨{ State.reset with pending := [] }, _, ?_, ?_, ?_, rfl⟩
  · exact ⟨by decide, by decide, by decide, by decide, by decide, by decide, by decide, by decide,
      fun h => absurd rfl h, by decide, fun f h => (by cases h), by decide, by decide, by decide,
      fun _ _ => rfl, fun h => (by cases h), by decide, by decide, fun l r h => (by cases h)⟩
  · refine ⟨?_, ?_, fun b _ => rfl, ?_, ?_, ?_, by decide, ?_, ?_,
      fun n _ => ⟨rfl, rfl, rfl⟩, ?_, ?_⟩
    · intro b h
      cases h
    · intro b h
      cases h
    · intro b h
      cases h
    · intro e he
      cases he
    · intro e he
      cases he
    · intro op h
      cases h
    · intro op h _
      exact ⟨rfl, rfl⟩
    · intro b h
      cases h
    · intro b h
      cases h
  · refine ⟨fun b => ?_, fun e he => by cases he⟩
    exact Nat.zero_le _

end Sys2Proof.Tests
end

section
/-! PROOF. The acceptance rule for a SCRUB offer (R12): a block the map reads CLEAN has nothing
staged and is not on the repair list, so the offer needs a free place, is appended, and is no
advance. -/

namespace Sys2Proof.Machine

/-! ## Versions, staging and the map under an acceptance -/

/-- No version is newer than itself (R1). -/
@[simp] theorem newer_self (v : Version) : newer v v = false := by
  simp [newer]

/-- Where the block has no WAITING entry, the queue takes a version at its tail (R11). -/
theorem stage_eq_append (b : Nat) (v : Version) (d : Data) (source : Source)
    (l : List StagingEntry) (h : ∀ e, e ∈ l → ¬ (e.block = b ∧ e.state = .waiting)) :
    stage b v d source l = l ++ [⟨b, v, d, source, .waiting⟩] := by
  induction l with
  | nil => rfl
  | cons e rest ih =>
    have head : ¬ (e.block = b ∧ e.state = .waiting) := h e List.mem_cons_self
    have tail := ih fun x hx => h x (List.mem_cons_of_mem e hx)
    rw [stage, if_neg head, tail, List.cons_append]

@[simp] theorem State.take_staging (s : State) (b : Nat) (v : Version) (d : Data)
    (source : Source) :
    (s.take b v d source).store.staging = stage b v d source s.store.staging := by
  simp [State.take, State.setEntry]

/-- The block taken reads STAGED at the version, its sector and media version kept, and every other
block reads as it did (R13). -/
theorem State.entryOf_take (s : State) (b k : Nat) (v : Version) (d : Data) (source : Source) :
    (s.take b v d source).entryOf k =
      if b = k then { s.entryOf b with version := v, condition := .staged } else s.entryOf k := by
  have listed : ({ s.entryOf b with version := v, condition := .staged } : MapEntry) ≠ .unwritten :=
    fun h => by cases congrArg MapEntry.condition h
  exact s.entryOf_setEntry b k _ (.inl listed)

/-- The block leaves the scrub list by an acceptance (R14). -/
def State.unlistScrub (s : State) (b : Nat) : State :=
  s.onMedia fun m => { m with scrub := m.scrub.filter (· ≠ b) }

@[simp] theorem State.unlistScrub_keeps (s : State) (b : Nat) :
    (s.unlistScrub b).store = s.store ∧ (s.unlistScrub b).line = s.line ∧
    (s.unlistScrub b).writes = s.writes ∧ (s.unlistScrub b).reads = s.reads ∧
    (s.unlistScrub b).repair = s.repair ∧ (s.unlistScrub b).client = s.client := by
  simp [State.unlistScrub]

@[simp] theorem State.entryOf_unlistScrub (s : State) (b k : Nat) :
    (s.unlistScrub b).entryOf k = s.entryOf k := rfl

/-- An acceptance touches nothing of the repair engine for a block off the repair list (R14). -/
theorem State.repaired_of_not_mem {s : State} {b : Nat} (h : b ∉ s.repair.list) :
    s.repaired b = s := by
  simp [State.repaired, h]

/-- An acceptance that does not advance a block off the repair list: the map entry, the staging
queue and the scrub list take it, and no unit is told (R14, R15). -/
theorem State.accept_of_not_newer {s : State} {b : Nat} {v : Version} (d : Data) (source : Source)
    (hv : newer v (s.entryOf b).version = false) (hb : b ∉ s.repair.list) :
    s.accept b v d source = (s.take b v d source).unlistScrub b := by
  have unlisted : b ∉ ((s.take b v d source).unlistScrub b).repair.list := by simpa using hb
  calc s.accept b v d source
    _ = ((s.take b v d source).unlistScrub b).repaired b := if_neg (by simp [hv])
    _ = (s.take b v d source).unlistScrub b := State.repaired_of_not_mem unlisted

/-! ## What the soundness of the map says of a CLEAN block -/

section
variable {s : State} {b : Nat}

/-- A CLEAN block has no staging entry (R7). -/
theorem State.MapSound.not_staged_of_clean (hs : s.MapSound)
    (hc : (s.entryOf b).condition = .clean) : ∀ e, e ∈ s.store.staging → e.block ≠ b := by
  rintro e he rfl
  have staged := hs.held e he
  simp [hc] at staged

/-- A CLEAN block is not on the repair list (R56). -/
theorem State.MapSound.not_listed_of_clean (hs : s.MapSound)
    (hc : (s.entryOf b).condition = .clean) : b ∉ s.repair.list := by
  intro hb
  have lost := hs.listed b hb
  simp [hc] at lost

/-- For a CLEAN block a SCRUB offer has room exactly where the staging queue has a free place
(R11). -/
theorem State.MapSound.roomFor_scrub_of_clean (hs : s.MapSound)
    (hc : (s.entryOf b).condition = .clean) :
    s.roomFor b .scrub = true ↔ s.store.staging.length < Config.stagingCapacity := by
  have none_waiting : s.hasWaiting b = false := by
    simpa [State.hasWaiting] using fun e he hb => absurd hb (hs.not_staged_of_clean hc e he)
  simp [State.roomFor, none_waiting]

end

/-! ## The judgment and the offer -/

/-- A SCRUB offer for a block of the store is judged by R12 alone. -/
theorem State.judge_scrub (s : State) {b : Nat} (v : Version) (hb : b < 4096) :
    s.judge b v .scrub = s.judgeScrub b v := by
  have inStore : ¬ Config.blocks ≤ b := Nat.not_le.mpr hb
  simp [State.judge, inStore]

theorem State.judgeScrub_at_held_version {s : State} {b : Nat} {v : Version}
    (hc : (s.entryOf b).condition = .clean) (hv : (s.entryOf b).version = v) :
    s.judgeScrub b v = if s.roomFor b .scrub then .accept else .busy :=
  if_pos ⟨hc, hv⟩

theorem State.judgeScrub_otherwise {s : State} {b : Nat} {v : Version}
    (h : (s.entryOf b).condition ≠ .clean ∨ (s.entryOf b).version ≠ v) :
    s.judgeScrub b v = .stale (s.entryOf b).version :=
  if_neg fun ⟨hc, hv⟩ => h.elim (· hc) (· hv)

theorem State.offer_of_judge_accept {s : State} {b : Nat} {v : Version} {source : Source}
    (d : Data) (h : s.judge b v source = .accept) :
    s.offer b v d source = (s.accept b (offeredVersion v source) d source, .accept) := by
  simp [State.offer, h]

/-- An answer other than ACCEPT changes nothing (R10). -/
theorem State.offer_of_judge_ne_accept {s : State} {b : Nat} {v : Version} {source : Source}
    {a : Answer} (d : Data) (h : s.judge b v source = a) (ha : a ≠ .accept) :
    s.offer b v d source = (s, a) := by
  cases a with
  | accept => exact absurd rfl ha
  | duplicate | stale _ | busy => simp [State.offer, h]

/-- The acceptance of a SCRUB offer, whole: the block is taken at the version it has, and leaves the
scrub list (R12, R14). -/
theorem State.MapSound.offer_scrub_of_room {s : State} {b : Nat} {v : Version} (d : Data)
    (hs : s.MapSound) (hb : b < 4096) (hc : (s.entryOf b).condition = .clean)
    (hv : (s.entryOf b).version = v) (room : s.store.staging.length < 16) :
    s.offer b v d .scrub = ((s.take b v d .scrub).unlistScrub b, .accept) := by
  have accepted : s.judge b v .scrub = .accept := by
    rw [s.judge_scrub v hb, State.judgeScrub_at_held_version hc hv,
      if_pos ((hs.roomFor_scrub_of_clean hc).mpr room)]
  have notNewer : newer v (s.entryOf b).version = false := by simp [hv]
  have same : offeredVersion v .scrub = v := rfl
  rw [State.offer_of_judge_accept d accepted, same,
    State.accept_of_not_newer d .scrub notNewer (hs.not_listed_of_clean hc)]

/-- Settles O24: the three branches of R12, the acceptance through the one state it leaves. -/
theorem scrubOfferIsJudgedByItself : Obligations.ScrubOfferIsJudgedByItself := by
  intro b v d s hs hb
  refine ⟨fun hc hv room => ?_, fun hc hv full => ?_, fun h => ?_⟩
  · have nothing_waits : ∀ e, e ∈ s.store.staging → ¬ (e.block = b ∧ e.state = .waiting) :=
      fun e he hw => hs.not_staged_of_clean hc e he hw.1
    rw [hs.offer_scrub_of_room d hb hc hv room]
    refine ⟨rfl, ?_, ?_, fun k hk => ?_, ?_⟩
    · simp [State.entryOf_take, hv]
    · simp [stage_eq_append b v d .scrub _ nothing_waits]
    · simp [State.entryOf_take, hk.symm]
    · simp
  · have busy : s.judge b v .scrub = .busy := by
      rw [s.judge_scrub v hb, State.judgeScrub_at_held_version hc hv,
        if_neg fun room => Nat.not_lt.mpr full ((hs.roomFor_scrub_of_clean hc).mp room)]
    exact State.offer_of_judge_ne_accept d busy (by simp)
  · have stale : s.judge b v .scrub = .stale (s.entryOf b).version :=
      (s.judge_scrub v hb).trans (State.judgeScrub_otherwise h)
    exact State.offer_of_judge_ne_accept d stale (by simp)

end Sys2Proof.Machine
end

section
/-! PROOF. The join test (R109): what a peer reports, the search of the peer table by rising number,
and the three results of the test. -/

namespace Sys2Proof.Machine

/-! ## What the peer table says of the others -/

/-- n is a peer, is PRESENT, and its entry reports the phase (R102). -/
theorem State.peerReports_iff (s : State) (n : StationNo) (p : RunPhase) :
    s.peerReports n p = true ↔
      n ≠ s.own ∧ (s.peer n).state = .present ∧ (s.peer n).reported = some p := by
  simp [State.peerReports, State.presentPeer, and_assoc]

/-- The search of the table by rising number ends at the lowest-numbered ONLINE peer. -/
theorem State.onlinePeer_eq_some_iff (s : State) (n : StationNo) :
    s.onlinePeer = some n ↔
      s.peerReports n .online = true ∧ ∀ k, s.peerReports k .online = true → n ≤ k := by
  have found_first : s.onlinePeer = some n ↔
      s.peerReports n .online = true ∧ ∀ k < n, s.peerReports k .online = false := by
    rw [State.onlinePeer, ← Fin.find?_eq_find?_finRange, Fin.find?_eq_some_iff]
  rw [found_first]
  refine and_congr_right fun _ => forall_congr' fun k => ?_
  rw [← not_imp_not, Bool.not_eq_false, not_lt]

theorem State.onlinePeer_eq_none_iff (s : State) :
    s.onlinePeer = none ↔ ∀ n, ¬ s.peerReports n .online = true := by
  simp [State.onlinePeer]

/-- The own number is the lowest among the stations that wait for a founder (R109 step 2). -/
theorem State.lowestWaiting_iff (s : State) :
    s.lowestWaiting = true ↔
      ∀ n, s.peerReports n .listening = true ∨ s.peerReports n .isolated = true → s.own < n := by
  rw [State.lowestWaiting, List.all_eq_true]
  refine forall_congr' fun n => ?_
  simp [imp_iff_not_or]

/-! ## The three results of the test -/

section
variable {s : State}

theorem State.joinTest_of_onlinePeer_eq_some {n : StationNo} (h : s.onlinePeer = some n) :
    s.joinTest = .catchUp n := by
  simp [State.joinTest, h]

theorem State.joinTest_of_onlinePeer_eq_none (h : s.onlinePeer = none) :
    s.joinTest = if s.lowestWaiting = true ∧ s.quorum ≤ s.visible then .found else .stay := by
  simp [State.joinTest, h]

end

/-- Settles O46: an ONLINE peer ends the search of the table, and with none the two conditions of
founding decide. -/
theorem joinTestDecides : Obligations.JoinTestDecides := by
  intro s
  simp only [← State.peerReports_iff, ← State.lowestWaiting_iff, ← State.onlinePeer_eq_none_iff]
  refine ⟨fun n online lowest => ?_, fun alone => ⟨fun waiting quorum => ?_, fun short => ?_⟩⟩
  · have server : s.onlinePeer = some n := (s.onlinePeer_eq_some_iff n).mpr ⟨online, lowest⟩
    exact State.joinTest_of_onlinePeer_eq_some server
  · rw [State.joinTest_of_onlinePeer_eq_none alone, if_pos ⟨waiting, quorum⟩]
  · rw [State.joinTest_of_onlinePeer_eq_none alone, if_neg short]

end Sys2Proof.Machine
end

section
/-! PROOF. The ack window of a proposal (R128): what a due expiry runs, the UPDATE of the next
attempt built from an entry just written, and the end of a proposal after its last attempt. -/

namespace Sys2Proof.Machine

/-! ## A due expiry -/

theorem State.expire_of_due {s : State} {due : Bool} (act : State → State) (live : s.live = true)
    (h : due = true) : s.expire due act = (act s).settle := by
  simp [State.expire, live, h]

theorem exec_ackWindowExpiry_of_due {i : Fin 8} {s : State} (live : s.live = true)
    (awaiting : (s.proposal i).state = .awaiting) (window : (s.proposal i).window = some 0) :
    exec (.ackWindowExpiry i) s = .next (s.ackExpired i).settle := by
  have due : ((s.proposal i).window.due && decide ((s.proposal i).state = .awaiting)) = true := by
    simp [Window.due, awaiting, window]
  exact congrArg Host.Outcome.next (State.expire_of_due (State.ackExpired i) live due)

/-! ## The next attempt and the end of a proposal -/

/-- Of two writes to one entry of the proposal table the later one stands. -/
theorem State.setProposal_setProposal (s : State) (i : Fin 8) (p q : Proposal) :
    (s.setProposal i p).setProposal i q = s.setProposal i q := by
  simp [State.setProposal, State.onWrites]

/-- The UPDATE of an entry just written is built from what was written there (R126). -/
theorem State.sendUpdate_setProposal (s : State) (i : Fin 8) (p : Proposal) :
    (s.setProposal i p).sendUpdate i =
      (s.setProposal i { p with
          state := .sending, frames := p.frames ++ [s.line.nextId] }).bumpId.place s.line.nextId
        (s.build none (.update (BitVec.ofNat 16 p.block) p.version (byteOf p.attempt) (~~~p.acks)
          false p.data)) := by
  have written : (s.setProposal i p).proposal i = p := by simp [State.proposal_setProposal]
  have station : (s.setProposal i p).build = s.build := rfl
  simp only [State.sendUpdate, written, station, State.setProposal_setProposal,
    State.setProposal_line]

theorem State.ackExpired_of_attempts_left {s : State} {i : Fin 8} (h : (s.proposal i).attempt < 4) :
    s.ackExpired i = (s.setProposal i { s.proposal i with
      attempt := (s.proposal i).attempt + 1, window := none }).sendUpdate i :=
  if_pos h

theorem State.ackExpired_of_last_attempt {s : State} {i : Fin 8}
    (h : 4 ≤ (s.proposal i).attempt) :
    s.ackExpired i = s.finishProposal i .noQuorum none :=
  if_neg (Nat.not_lt.mpr h)

/-- A proposal that finishes leaves its result in the entry, withdraws its UPDATEs and puts its
record in the completion queue (R125). -/
theorem State.finishProposal_of_running {s : State} {i : Fin 8} (r : Result) (w : Option Version)
    (running : (s.proposal i).running = true) :
    s.finishProposal i r w =
      ((s.setProposal i { s.proposal i with
          state := .finished, result := some r, winning := w, window := none,
          frames := [] }).withdrawAll (s.proposal i).frames).complete
        (.write (s.proposal i).tag r (w.getD (s.proposal i).version) s.member.phase) :=
  if_pos running

/-- Settles O48: the due expiry, then its two branches at the fourth attempt. -/
theorem ackWindowTriesFourTimes : Obligations.AckWindowTriesFourTimes := by
  intro i s live awaiting window
  rw [exec_ackWindowExpiry_of_due live awaiting window]
  refine ⟨fun left => ?_, fun last => ?_⟩
  · rw [State.ackExpired_of_attempts_left left, State.sendUpdate_setProposal]
    rfl
  · have running : (s.proposal i).running = true := by simp [Proposal.running, awaiting]
    rw [State.ackExpired_of_last_attempt last, State.finishProposal_of_running _ _ running]
    rfl

end Sys2Proof.Machine
end

section
/-! PROOF. The moves of the station: what a command and the units that go on after it are made of.
Each move says what it asks of the state it starts from, so that an invariant is proved once for each
move and holds then of every step. -/

namespace Sys2Proof.Machine

/-! ## What a move of an entry keeps -/

/-- The proposal goes on: its tag stays, and so does whether the entry is FREE and whether it is
FINISHED (R122, R182). -/
structure Proposal.Continues (p old : Proposal) : Prop where
  tag      : p.tag = old.tag
  free     : p.state = .free ↔ old.state = .free
  finished : p.state = .finished ↔ old.state = .finished

/-- The read goes on, in the same sense (R141, R182). -/
structure ReadEntry.Continues (e old : ReadEntry) : Prop where
  tag      : e.tag = old.tag
  free     : e.state = .free ↔ old.state = .free
  finished : e.state = .finished ↔ old.state = .finished

@[refl] theorem Proposal.Continues.refl (p : Proposal) : p.Continues p := ⟨rfl, Iff.rfl, Iff.rfl⟩

@[refl] theorem ReadEntry.Continues.refl (e : ReadEntry) : e.Continues e := ⟨rfl, Iff.rfl, Iff.rfl⟩

/-- A read that runs goes on in any other state of a running read. -/
theorem ReadEntry.Continues.of_running {e old : ReadEntry} (tag : e.tag = old.tag)
    (he : e.running = true) (ho : old.running = true) : e.Continues old := by
  simp only [ReadEntry.running, Bool.and_eq_true, decide_eq_true_eq] at he ho
  exact ⟨tag, by simp [he, ho], by simp [he, ho]⟩

theorem ReadEntry.running_of_state {e old : ReadEntry} (h : e.state = old.state)
    (running : old.running = true) : e.running = true := by
  simpa only [ReadEntry.running, h] using running

theorem Proposal.Continues.of_running {p old : Proposal} (tag : p.tag = old.tag)
    (hp : p.running = true) (ho : old.running = true) : p.Continues old := by
  simp only [Proposal.running, Bool.or_eq_true, decide_eq_true_eq] at hp ho
  refine ⟨tag, ?_, ?_⟩ <;> rcases hp with hp | hp <;> rcases ho with ho | ho <;> simp [hp, ho]

/-! ## What a move of the client port keeps -/

/-- A TAKE holds the record at the head of the completion queue (R183). -/
def ClientPort.HoldsHead (c : ClientPort) : Prop :=
  ∀ leading r, c.transaction = .opened leading (.completion (some r)) → c.completions.head? = some r

/-- The client port moves on: the completion queue stays, the event queue within its capacity, and a
TAKE with the head record. -/
structure ClientPort.Continues (c old : ClientPort) : Prop where
  completions : c.completions = old.completions
  events      : old.events.length ≤ 16 → c.events.length ≤ 16
  fixed       : old.HoldsHead → c.HoldsHead

/-! ## The block leaves every list as it is admitted -/

/-- What an acceptance does at the store and at the lists, before the units are told: the entry and
the staging queue take the version, the scrub list and the repair list lose the block (R13, R14). -/
def State.intake (s : State) (b : Nat) (v : Version) (d : Data) (source : Source) : State :=
  ((s.take b v d source).unlistScrub b).unlistRepair b

/-! ## The moves -/

/-- The station t comes from the station s by moves of its units. `claim` is the version of a local
write being judged, whose sequence the clock takes only after its acceptance (R3, R124). -/
inductive State.Runs (s : State) (claim : Option Version) : State → Prop
  | refl : s.Runs claim s
  | control {t} (f : ResetControl → ResetControl) : s.Runs claim t → s.Runs claim (t.onControl f)
  | member {t} (f : Membership → Membership)
      (h : (f t.member).phase = t.member.phase ∨ s.member.phase ≠ .mounting ∨ t.media.port = none) :
      s.Runs claim t → s.Runs claim (t.onMember f)
  | mount {t} (f : MountSequencer → MountSequencer) : s.Runs claim t → s.Runs claim (t.onMount f)
  | client {t} (f : ClientPort → ClientPort) (h : (f t.client).Continues t.client) :
      s.Runs claim t → s.Runs claim (t.onClient f)
  | remove {t} (r : CompletionRecord)
      (h : s.client.HoldsHead → t.client.completions.head? = some r)
      (closed : t.client.transaction = .closed) :
      s.Runs claim t → s.Runs claim (t.removeCompletion r)
  | note {t} (f : LineController → LineController)
      (h : (f t.line).queue = t.line.queue ∧ (f t.line).waiting = t.line.waiting ∧
        ((f t.line).replacement = t.line.replacement ∨ (f t.line).replacement = none)) :
      s.Runs claim t → s.Runs claim (t.onLine f)
  | restate {t} (g : QueuedFrame → QueuedFrame) (h : ∀ q, (g q).frame = q.frame) :
      s.Runs claim t →
      s.Runs claim (t.onLine fun l => { l with queue := l.queue.map g })
  | replace {t} (id : Nat) (f : Frame) (h : f.isHeartbeat = true ∨ s.line.replacement = some f) :
      s.Runs claim t → s.Runs claim (t.replaceFrame id f)
  | beat {t} (f : Frame) (h : f.isHeartbeat = true ∨ s.line.replacement = some f) :
      s.Runs claim t → s.Runs claim (t.placeHeartbeat f)
  | place {t} (id : Nat) (f : Frame) : s.Runs claim t → s.Runs claim (t.place id f)
  | leave {t} (id : Nat) : s.Runs claim t → s.Runs claim (t.leaveQueue id)
  | withdraw {t} (id : Nat) : s.Runs claim t → s.Runs claim (t.withdraw id)
  | withdrawAll {t} (ids : List Nat) : s.Runs claim t → s.Runs claim (t.withdrawAll ids)
  | writes {t} (f : WriteCoordinator → WriteCoordinator)
      (h : ∀ i, ((f t.writes).proposals.get i).Continues (t.proposal i)) :
      s.Runs claim t → s.Runs claim (t.onWrites f)
  | reads {t} (f : ReadCoordinator → ReadCoordinator)
      (h : ∀ i, ((f t.reads).entries.get i).Continues (t.readEntry i)) :
      s.Runs claim t → s.Runs claim (t.onReads f)
  | finishProposal {t} (i : Fin 8) (r : Result) (w : Option Version) :
      s.Runs claim t → s.Runs claim (t.finishProposal i r w)
  | finishRead {t} (i : Fin 4) (r : Result) (v : Version) (d : Data) :
      s.Runs claim t → s.Runs claim (t.finishRead i r v d)
  | claimProposal {t} (i : Fin 8) (p : Proposal) (free : (t.proposal i).state = .free)
      (running : p.running = true) (tag : t.tagInUse p.tag = false) :
      s.Runs claim t → s.Runs claim (t.setProposal i p)
  | claimRead {t} (i : Fin 4) (e : ReadEntry) (free : (t.readEntry i).state = .free)
      (running : e.running = true) (tag : t.tagInUse e.tag = false) :
      s.Runs claim t → s.Runs claim (t.setRead i e)
  | repair {t} (f : RepairEngine → RepairEngine)
      (list : (f t.repair).list.Sublist t.repair.list)
      (queue : t.repair.serveQueue.length ≤ 4 → (f t.repair).serveQueue.length ≤ 4) :
      s.Runs claim t → s.Runs claim (t.onRepair f)
  | requests {t} (f : MediaController → MediaController)
      (h : f t.media = { t.media with
        clientRequests := (f t.media).clientRequests
        engineRequests := (f t.media).engineRequests }) :
      s.Runs claim t → s.Runs claim (t.onMedia f)
  | learn {t} (seq : BitVec 32) : s.Runs claim t → s.Runs claim (t.learn seq)
  | intake {t} (b : Nat) (v : Version) (d : Data) (source : Source)
      (h : s.member.phase ≠ .mounting)
      (room : t.hasWaiting b = true ∨ t.store.staging.length < 16)
      (held : v.seq ≤ t.store.clock ∨ v = (t.entryOf b).version ∨ claim = some v) :
      s.Runs claim t → s.Runs claim (t.intake b v d source)
  | appendScrub {t} (b : Nat) (phase : s.member.phase ≠ .mounting)
      (h : (t.entryOf b).condition = .clean) :
      s.Runs claim t → s.Runs claim (t.appendScrub b)
  | lostByRead {t} (b : Nat) (phase : s.member.phase ≠ .mounting)
      (h : (t.entryOf b).condition = .clean) :
      s.Runs claim t → s.Runs claim (t.lostByRead b)
  | applyWrite {t} (op : WriteOp) (written : Bool) (final : Option Nat)
      (h : t.media.port = some (.write op)) :
      s.Runs claim t → s.Runs claim (t.freePort.applyWrite op written final)
  | freePort {t} : s.Runs claim t → s.Runs claim t.freePort
  | goOn {t} (op next : WriteOp) (steps : List MediaStep) (h : t.media.port = some (.write op))
      (block : next.block = op.block) (version : next.version = op.version) :
      s.Runs claim t → s.Runs claim (t.usePort (.write next) steps)
  | answer {t} (steps : List MediaStep) (h : t.media.steps ≠ []) :
      s.Runs claim t → s.Runs claim (t.onMedia fun m => m.run steps)
  | window {t} (f : Window → Window) (h : f none = none) :
      s.Runs claim t → s.Runs claim (t.onMedia fun m => { m with stepWindow := f m.stepWindow })
  | retire {t} (n : Nat) : s.Runs claim t → s.Runs claim (t.retire n)
  | pool {t} (spares : List Nat) (exhausted : Bool) (h : spares.Sublist t.media.spares) :
      s.Runs claim t →
      s.Runs claim (t.onMedia fun m => { m with spares := spares, sparesExhausted := exhausted })
  | startHead {t} (e : StagingEntry) (rest : List StagingEntry) (op : WriteOp)
      (steps : List MediaStep) (h : t.store.staging = e :: rest) (waiting : e.state = .waiting)
      (free : t.media.port = none) (block : op.block = e.block) (version : op.version = e.version) :
      s.Runs claim t → s.Runs claim ((t.startHead e rest).usePort (.write op) steps)
  | passOver {t} : s.Runs claim t → s.Runs claim t.passOver
  | readSector {t} (r : ReadRequest) (n : Nat) (v : Version) (free : t.media.port = none) :
      s.Runs claim t → s.Runs claim (t.usePort (.sectorRead r n v) [.read n])
  | readScrub {t} (b : Nat) (rest : List Nat) (n : Nat) (v : Version)
      (h : t.media.scrub = b :: rest) (free : t.media.port = none) :
      s.Runs claim t →
      s.Runs claim ((t.onMedia fun m => { m with scrub := rest }).usePort (.scrubRead b n v)
        [.read n])
  | scanNext {t} (n : Nat) (h : t.media.port = some (.scanRead n)) :
      s.Runs claim t → s.Runs claim (t.usePort (.scanRead (n + 1)) [.read (n + 1)])
  | resolveMark {t} (findings : List Finding) (n k : Nat) (h : t.media.port = some (.scanRead n)) :
      s.Runs claim t →
      s.Runs claim ((t.resolve findings).usePort (.retireMark k) [.mark k])
  | resolveEnd {t} (findings : List Finding) (n : Nat) (h : t.media.port = some (.scanRead n)) :
      s.Runs claim t → s.Runs claim (t.resolve findings).freePort
  | markNext {t} (n k : Nat) (h : t.media.port = some (.retireMark n)) :
      s.Runs claim t → s.Runs claim (t.usePort (.retireMark k) [.mark k])

/-- A reset of the station: it is held at the given control, or released with its straps sampled. -/
inductive State.Resets (s : State) : State → Prop
  | held (control : ResetControl) : s.Resets (s.toReset control)
  | released (straps : Straps) : s.Resets (s.startUp straps)

end Sys2Proof.Machine
end

section
/-! PROOF. The operations of the units as moves: each one is a run of moves, and what it asks of the
state, an entry that runs or a station out of MOUNTING, is said once. -/

namespace Sys2Proof.Machine

/-! ## The client port -/

theorem mergeEvent_length {k : EventKind} {b : Subject} {d : Detail} {l m : List EventRecord}
    (h : mergeEvent k b d l = some m) : m.length = l.length := by
  induction l generalizing m with
  | nil => cases h
  | cons r l ih =>
    unfold mergeEvent at h
    split at h
    · cases h
      rfl
    · obtain ⟨n, hn, rfl⟩ := Option.map_eq_some_iff.mp h
      simp [ih hn]

/-- A drop changes at most the count that a held EVENTS_DROPPED record waits with (R186). -/
theorem ClientPort.dropEvent_events (c : ClientPort) (k : EventKind) :
    (c.dropEvent k).events = c.events := by
  unfold ClientPort.dropEvent
  split <;> rfl

theorem ClientPort.raise_events_length (c : ClientPort) (k : EventKind) (b : Subject) (d : Detail)
    (h : c.events.length ≤ 16) : (c.raise k b d).events.length ≤ 16 := by
  unfold ClientPort.raise
  dsimp only
  split
  · rename_i rest hm
    have merged := mergeEvent_length hm
    simp only [List.length_append, List.length_take, merged, List.length_drop]
    omega
  · split
    · simpa [Config.eventCapacity] using ‹c.events.length < _›
    · rw [ClientPort.dropEvent_events]
      exact h

/-- An event touches no transaction that holds a completion record. -/
theorem ClientPort.raise_transaction (c : ClientPort) (k : EventKind) (b : Subject) (d : Detail)
    (leading : List Byte) (r : CompletionRecord)
    (h : (c.raise k b d).transaction = .opened leading (.completion (some r))) :
    c.transaction = .opened leading (.completion (some r)) := by
  unfold ClientPort.raise ClientPort.dropEvent at h
  dsimp only at h
  repeat' split at h
  all_goals first
    | exact h
    | cases h

theorem ClientPort.Continues.raise (c : ClientPort) (k : EventKind) (b : Subject) (d : Detail) :
    (c.raise k b d).Continues c where
  completions := by simp
  events := c.raise_events_length k b d
  fixed := fun h leading r hr => by
    simpa using h leading r (c.raise_transaction k b d leading r hr)

namespace State.Runs

variable {s t : State} {claim : Option Version}

/-! ## Moves of one field -/

theorem bumpId (h : s.Runs claim t) : s.Runs claim t.bumpId := h.note _ ⟨rfl, rfl, .inl rfl⟩

theorem raise (h : s.Runs claim t) (k : EventKind) (b : Subject) (d : Detail) :
    s.Runs claim (t.raise k b d) := h.client _ (.raise _ k b d)

theorem record (h : s.Runs claim t) (tag : Byte) (o : SubmitOutcome) :
    s.Runs claim (t.record tag o) := h.client _ ⟨rfl, id, id⟩

theorem send (h : s.Runs claim t) (n : Option StationNo) (b : Body) : s.Runs claim (t.send n b) :=
  h.bumpId.place _ _

theorem onFetch (h : s.Runs claim t) (f : FetchSlot → FetchSlot) : s.Runs claim (t.onFetch f) :=
  h.repair _ (.refl _) id

theorem onCursor (h : s.Runs claim t) (f : Cursor → Cursor) : s.Runs claim (t.onCursor f) :=
  h.repair _ (.refl _) id

theorem setServe (h : s.Runs claim t) (job : Option ServeJob) : s.Runs claim (t.setServe job) :=
  h.repair _ (.refl _) id

theorem unlistRepair (h : s.Runs claim t) (b : Nat) : s.Runs claim (t.unlistRepair b) :=
  h.repair _ List.filter_sublist id

theorem setPeer (h : s.Runs claim t) (n : StationNo) (e : PeerEntry) :
    s.Runs claim (t.setPeer n e) := h.member _ (.inl rfl)

theorem setProposal (h : s.Runs claim t) {i : Fin 8} {p : Proposal}
    (hp : p.Continues (t.proposal i)) : s.Runs claim (t.setProposal i p) := by
  refine h.writes _ fun j => ?_
  have read : ((t.writes.proposals.set i p).get j) = if i = j then p else t.proposal j :=
    vector_get_set _ _ _ _
  rw [read]
  split
  · subst j
    exact hp
  · rfl

theorem setRead (h : s.Runs claim t) {i : Fin 4} {e : ReadEntry}
    (he : e.Continues (t.readEntry i)) : s.Runs claim (t.setRead i e) := by
  refine h.reads _ fun j => ?_
  have read : ((t.reads.entries.set i e).get j) = if i = j then e else t.readEntry j :=
    vector_get_set _ _ _ _
  rw [read]
  split
  · subst j
    exact he
  · rfl

/-- A fold of operations that are moves is a run of moves. -/
theorem foldl {β : Type} {f : State → β → State} (h : s.Runs claim t)
    (step : ∀ u x, s.Runs claim u → s.Runs claim (f u x)) (l : List β) :
    s.Runs claim (l.foldl f t) := by
  induction l generalizing t with
  | nil => exact h
  | cons x l ih => exact ih (step t x h)

/-! ## The read coordinator -/

theorem finishFromMap (h : s.Runs claim t) (i : Fin 4) : s.Runs claim (t.finishFromMap i) := by
  unfold State.finishFromMap
  dsimp only
  split
  · exact h.finishRead ..
  · exact h.finishRead ..
  · exact h.finishRead ..
  · exact h

theorem requestRead (h : s.Runs claim t) {i : Fin 4} (running : (t.readEntry i).running = true) :
    s.Runs claim (t.requestRead i) := by
  have went : s.Runs claim (t.setRead i { t.readEntry i with
      state := .reading, request := some t.line.nextId }) :=
    h.setRead (.of_running rfl rfl running)
  unfold State.requestRead
  exact went.bumpId.requests _ rfl

theorem beginLocal (h : s.Runs claim t) {i : Fin 4} (running : (t.readEntry i).running = true) :
    s.Runs claim (t.beginLocal i) := by
  unfold State.beginLocal
  split
  · exact h.requestRead running
  · exact h.finishFromMap i

theorem reportClientAt (h : s.Runs claim t) (id : Nat) (m : MediaReport) (i : Fin 4) :
    s.Runs claim (t.reportClientAt id m i) := by
  unfold State.reportClientAt
  dsimp only
  split
  · cases m with
    | readable v d => exact h.finishRead ..
    | declined | unreadable => exact h.finishFromMap i
  · exact h

theorem reportClient (h : s.Runs claim t) (id : Nat) (m : MediaReport) :
    s.Runs claim (t.reportClient id m) := h.foldl (fun _ i hu => hu.reportClientAt id m i) _

theorem sendReadFetch (h : s.Runs claim t) (i : Fin 4) (n : StationNo) :
    s.Runs claim (t.sendReadFetch i n) := by
  have went : s.Runs claim (t.setRead i { t.readEntry i with
      frames := (t.readEntry i).frames ++ [t.line.nextId] }) :=
    h.setRead ⟨rfl, Iff.rfl, Iff.rfl⟩
  exact went.bumpId.place _ _

theorem nextTarget (h : s.Runs claim t) {i : Fin 4} (running : (t.readEntry i).running = true) :
    s.Runs claim (t.nextTarget i) := by
  unfold State.nextTarget
  dsimp only
  split
  · rename_i tried _
    have looked : s.Runs claim (t.setRead i { t.readEntry i with tried := tried }) :=
      h.setRead ⟨rfl, Iff.rfl, Iff.rfl⟩
    exact looked.finishRead ..
  · rename_i tried n _
    have asked : s.Runs claim (t.setRead i { t.readEntry i with
        state := .fetchSending, tried := tried, target := some n }) :=
      h.setRead (.of_running rfl rfl running)
    exact asked.sendReadFetch ..

theorem giveUpTarget (h : s.Runs claim t) {i : Fin 4} (running : (t.readEntry i).running = true) :
    s.Runs claim (t.giveUpTarget i) := by
  unfold State.giveUpTarget
  dsimp only
  refine State.Runs.nextTarget (State.Runs.withdrawAll _ (State.Runs.setRead h ?_)) ?_
  · exact ⟨rfl, Iff.rfl, Iff.rfl⟩
  · exact ReadEntry.running_of_state (by simp [State.readEntry, vector_get_set]) running

theorem endCollection (h : s.Runs claim t) {i : Fin 4} (running : (t.readEntry i).running = true) :
    s.Runs claim (t.endCollection i) := by
  have ended : s.Runs claim ((t.setRead i { t.readEntry i with
      queryWindow := none, frames := [], candidates := t.formCandidates (t.readEntry i)
      }).withdrawAll (t.readEntry i).frames) :=
    State.Runs.withdrawAll _ (h.setRead ⟨rfl, Iff.rfl, Iff.rfl⟩)
  unfold State.endCollection
  dsimp only
  split
  · refine ended.beginLocal ?_
    exact ReadEntry.running_of_state (by simp [State.readEntry, vector_get_set]) running
  · refine ended.nextTarget ?_
    exact ReadEntry.running_of_state (by simp [State.readEntry, vector_get_set]) running

theorem sendQuery (h : s.Runs claim t) {i : Fin 4} (running : (t.readEntry i).running = true) :
    s.Runs claim (t.sendQuery i) := by
  have went : s.Runs claim (t.setRead i { t.readEntry i with
      state := .querySending, frames := (t.readEntry i).frames ++ [t.line.nextId] }) :=
    h.setRead (.of_running rfl rfl running)
  exact went.bumpId.place _ _

theorem enterReport (h : s.Runs claim t) {i : Fin 4} (n : StationNo) (r : Report)
    (running : (t.readEntry i).running = true) : s.Runs claim (t.enterReport i n r) := by
  have entered : s.Runs claim (t.setRead i { t.readEntry i with
      reports := (t.readEntry i).reports.set n (some r) }) := h.setRead ⟨rfl, Iff.rfl, Iff.rfl⟩
  unfold State.enterReport
  dsimp only
  split
  · refine entered.endCollection ?_
    exact ReadEntry.running_of_state (by simp [State.readEntry, vector_get_set]) running
  · exact entered

theorem queryExpired (h : s.Runs claim t) {i : Fin 4} (running : (t.readEntry i).running = true) :
    s.Runs claim (t.queryExpired i) := by
  unfold State.queryExpired
  dsimp only
  split
  · have again : s.Runs claim (t.setRead i { t.readEntry i with
        attempt := (t.readEntry i).attempt + 1, queryWindow := none }) :=
      h.setRead ⟨rfl, Iff.rfl, Iff.rfl⟩
    refine again.sendQuery ?_
    exact ReadEntry.running_of_state (by simp [State.readEntry, vector_get_set]) running
  · exact h.finishRead ..

theorem noteAdvance (h : s.Runs claim t) (b : Nat) (v : Version) :
    s.Runs claim (t.noteAdvance b v) := by
  refine h.foldl (fun u i hu => ?_) _
  unfold State.noteAdvanceAt
  dsimp only
  split
  · exact hu.setRead ⟨rfl, Iff.rfl, Iff.rfl⟩
  · exact hu

end State.Runs

/-- A read that collects runs. -/
theorem ReadEntry.running_of_collecting {e : ReadEntry} (h : e.collecting = true) :
    e.running = true := by
  simp only [ReadEntry.collecting, Bool.or_eq_true, decide_eq_true_eq] at h
  rcases h with h | h <;> simp [ReadEntry.running, h]

/-- A read that asks a target runs. -/
theorem ReadEntry.running_of_fetching {e : ReadEntry} (h : e.fetching = true) :
    e.running = true := by
  simp only [ReadEntry.fetching, Bool.or_eq_true, decide_eq_true_eq] at h
  rcases h with h | h <;> simp [ReadEntry.running, h]

theorem ReadEntry.running_of_awaits {e : ReadEntry} {n : StationNo} {b : Nat}
    (h : e.awaits n b = true) : e.running = true := by
  simp only [ReadEntry.awaits, Bool.and_eq_true] at h
  exact ReadEntry.running_of_fetching h.1.1

namespace State.Runs

variable {s t : State} {claim : Option Version}

theorem readPeerLost (h : s.Runs claim t) (n : StationNo) : s.Runs claim (t.readPeerLost n) := by
  refine h.foldl (fun u i hu => ?_) _
  unfold State.readPeerLostAt
  dsimp only
  split
  · rename_i asked
    exact hu.giveUpTarget (ReadEntry.running_of_fetching asked.1)
  · exact hu

theorem isolateReads (h : s.Runs claim t) : s.Runs claim t.isolateReads := by
  refine h.foldl (fun u i hu => ?_) _
  unfold State.isolateReadAt
  dsimp only
  split
  · exact hu.finishRead ..
  · exact hu

/-! ## The fetch slot -/

theorem sendSlotFetch (h : s.Runs claim t) (n : StationNo) (b : Nat) :
    s.Runs claim (t.sendSlotFetch n b) := (h.onFetch _).bumpId.place _ _

theorem chooseFetchTarget (h : s.Runs claim t) (b : Nat) :
    s.Runs claim (t.chooseFetchTarget b) := by
  unfold State.chooseFetchTarget
  split
  · exact (h.onFetch _).sendSlotFetch ..
  · split
    · exact h.onFetch _
    · exact ((h.unlistRepair b).raise ..).onFetch _

theorem takeRepairHead (h : s.Runs claim t) : s.Runs claim t.takeRepairHead := by
  unfold State.takeRepairHead
  split
  · exact h
  · exact (h.onFetch _).chooseFetchTarget _

theorem giveUpFetch (h : s.Runs claim t) : s.Runs claim t.giveUpFetch := by
  unfold State.giveUpFetch
  dsimp only
  split
  · exact (State.Runs.withdrawAll _ (h.onFetch _)).chooseFetchTarget _
  · exact h

theorem endFetch (h : s.Runs claim t) : s.Runs claim t.endFetch :=
  State.Runs.withdrawAll _ (h.onFetch _)

theorem fetchBusy (h : s.Runs claim t) : s.Runs claim t.fetchBusy :=
  State.Runs.withdrawAll _ (h.onFetch _)

theorem fetchPeerLost (h : s.Runs claim t) (n : StationNo) : s.Runs claim (t.fetchPeerLost n) := by
  unfold State.fetchPeerLost
  split
  · exact h.giveUpFetch
  · exact h

/-! ## The serve queue and the serve slot -/

theorem dropEngineRequest (h : s.Runs claim t) (id : Nat) :
    s.Runs claim (t.dropEngineRequest id) := h.requests _ rfl

theorem requestEngine (h : s.Runs claim t) (r : Requester) (b : Nat) :
    s.Runs claim (t.requestEngine r b) := h.bumpId.requests _ rfl

theorem serveQueue (h : s.Runs claim t) (f : List ServeRequest → List ServeRequest)
    (le : (f t.repair.serveQueue).length ≤ t.repair.serveQueue.length) :
    s.Runs claim (t.onRepair fun r => { r with serveQueue := f r.serveQueue }) :=
  h.repair _ (.refl _) le.trans

theorem stopServe (h : s.Runs claim t) : s.Runs claim t.stopServe := by
  unfold State.stopServe
  split
  · exact h
  · split
    · exact h.setServe _
    · exact (h.setServe _).dropEngineRequest _
    · exact State.Runs.withdraw _ (h.setServe _)

theorem servePeerLost (h : s.Runs claim t) (n : StationNo) : s.Runs claim (t.servePeerLost n) := by
  have dropped := h.serveQueue (fun q => q.filter (·.requester ≠ n)) (List.length_filter_le ..)
  unfold State.servePeerLost
  dsimp only
  split
  · split
    · exact dropped.stopServe
    · exact dropped
  · exact dropped

theorem clearServe (h : s.Runs claim t) : s.Runs claim t.clearServe :=
  (h.serveQueue (fun _ => []) (Nat.zero_le _)).stopServe

theorem refuseDigest (h : s.Runs claim t) (r : ServeRequest) : s.Runs claim (t.refuseDigest r) := by
  unfold State.refuseDigest
  split
  · exact h.send ..
  · exact h

theorem isolateServeSlot (h : s.Runs claim t) : s.Runs claim t.isolateServeSlot := by
  unfold State.isolateServeSlot
  split
  · split
    · exact h.stopServe.refuseDigest _
    · exact h
  · exact h

theorem isolateServeQueue (h : s.Runs claim t) : s.Runs claim t.isolateServeQueue :=
  (h.serveQueue (fun q => q.filter (·.digestRange.isNone)) (List.length_filter_le ..)).foldl
    (fun _ r hu => hu.refuseDigest r) _

/-! ## The catch-up cursor -/

theorem haltCursor (h : s.Runs claim t) : s.Runs claim t.haltCursor := by
  have halted := State.Runs.withdrawAll (t.repair.cursor.earlier ++ t.repair.cursor.frames)
    (h.onCursor fun c => { c with
      rangeWindow := none, pushDeadline := none, backOff := none, rest := none, work := .ready
      frames := [], earlier := [] })
  unfold State.haltCursor
  dsimp only
  split
  · exact halted.dropEngineRequest _
  · exact halted

theorem startDigest (h : s.Runs claim t) : s.Runs claim t.startDigest := by
  unfold State.startDigest
  dsimp only
  split
  · exact h
  · exact (h.onCursor _).bumpId.place _ _

theorem chooseServer (h : s.Runs claim t) : s.Runs claim t.chooseServer := by
  unfold State.chooseServer
  dsimp only
  split
  · exact (h.onCursor _).startDigest
  · exact h.onCursor _

theorem dropServer (h : s.Runs claim t) : s.Runs claim t.dropServer :=
  (h.haltCursor.onCursor _).chooseServer

theorem failAttempt (h : s.Runs claim t) : s.Runs claim t.failAttempt := by
  unfold State.failAttempt
  split
  · exact (h.haltCursor.onCursor _).startDigest
  · exact h.dropServer

theorem stopCursor (h : s.Runs claim t) : s.Runs claim t.stopCursor := by
  unfold State.stopCursor
  split
  · exact h
  · exact h.haltCursor.onCursor _

theorem startCursor (h : s.Runs claim t) (n : StationNo) : s.Runs claim (t.startCursor n) :=
  (h.onCursor _).startDigest

theorem cursorPeerLost (h : s.Runs claim t) (n : StationNo) :
    s.Runs claim (t.cursorPeerLost n) := by
  unfold State.cursorPeerLost
  split
  · exact h.dropServer
  · exact h

theorem peerLost (h : s.Runs claim t) (n : StationNo) : s.Runs claim (t.peerLost n) :=
  (((h.readPeerLost n).fetchPeerLost n).servePeerLost n).cursorPeerLost n

/-! ## The acceptance rule -/

theorem advance (h : s.Runs claim t) (b : Nat) (v : Version) : s.Runs claim (t.advance b v) := by
  refine (noteAdvance (h.foldl (fun u i hu => ?_) _) b v).onCursor _
  unfold State.supersedeAt
  dsimp only
  split
  · exact hu.finishProposal ..
  · exact hu

end State.Runs

/-- A block off the repair list leaves it as it is. -/
theorem State.unlistRepair_of_not_mem {s : State} {b : Nat} (h : b ∉ s.repair.list) :
    s.unlistRepair b = s := by
  have same : s.repair.list.filter (· ≠ b) = s.repair.list :=
    List.filter_eq_self.mpr fun k hk => by
      have : k ≠ b := fun e => h (e ▸ hk)
      simpa using this
  unfold State.unlistRepair State.onRepair
  simp only [same]

namespace State.Runs

variable {s t : State} {claim : Option Version}

/-- An acceptance: the store and the lists take the version, and then the units are told (R13 to
R15). -/
theorem accept (h : s.Runs claim t) (b : Nat) (v : Version) (d : Data) (source : Source)
    (phase : s.member.phase ≠ .mounting)
    (room : t.hasWaiting b = true ∨ t.store.staging.length < 16)
    (held : v.seq ≤ t.store.clock ∨ v = (t.entryOf b).version ∨ claim = some v) :
    s.Runs claim (t.accept b v d source) := by
  have admitted := h.intake b v d source phase room held
  have told : s.Runs claim (((t.take b v d source).unlistScrub b).repaired b) := by
    unfold State.repaired
    dsimp only
    split
    · split
      · exact (admitted.raise ..).endFetch
      · exact admitted.raise ..
    · rename_i off
      have off' : b ∉ ((t.take b v d source).unlistScrub b).repair.list := by simpa using off
      have same : t.intake b v d source = (t.take b v d source).unlistScrub b :=
        State.unlistRepair_of_not_mem off'
      exact same ▸ admitted
  unfold State.accept
  dsimp only
  split
  · exact told.advance b v
  · exact told

end State.Runs

theorem State.roomFor_staging {s : State} {b : Nat} {source : Source}
    (h : s.roomFor b source = true) :
    s.hasWaiting b = true ∨ s.store.staging.length < 16 := by
  simp only [State.roomFor, Bool.and_eq_true, Bool.or_eq_true, decide_eq_true_eq] at h
  exact h.1

/-- An offer is accepted only where there is room (R10 to R12). -/
theorem State.roomFor_of_judge_accept {s : State} {b : Nat} {v : Version} {source : Source}
    (h : s.judge b v source = .accept) : s.roomFor b source = true := by
  unfold State.judge State.judgeScrub State.judgeOther at h
  dsimp only at h
  repeat' split at h
  all_goals first
    | assumption
    | (subst_vars; assumption)
    | cases h

/-- A SCRUB offer is accepted, or finds no room, only on a CLEAN entry at its version (R12). -/
theorem State.clean_of_judge_scrub {s : State} {b : Nat} {v : Version}
    (h : s.judge b v .scrub = .accept ∨ s.judge b v .scrub = .busy) :
    (s.entryOf b).condition = .clean ∧ (s.entryOf b).version = v := by
  by_contra other
  have stale := State.judgeScrub_otherwise (Decidable.not_and_iff_or_not.mp other)
  unfold State.judge at h
  simp only [stale] at h
  split at h <;> simp at h

theorem received_seq (v : Version) : (received v).seq = v.seq := by
  unfold received
  split
  · rename_i h
    simp [h, Version.nil]
  · rfl

namespace State.Runs

variable {s t : State} {claim : Option Version}

/-- An offer of a version that the clock has learned, or that a local write claims (R9, R3). -/
theorem offer (h : s.Runs claim t) (b : Nat) (v : Version) (d : Data) (source : Source)
    (phase : s.member.phase ≠ .mounting) (other : source ≠ .scrub)
    (held : v.seq ≤ t.store.clock ∨ (claim = some v ∧ v.seq ≠ 0#32)) :
    s.Runs claim (t.offer b v d source).1 := by
  unfold State.offer
  split
  · rename_i accepted
    refine h.accept _ _ _ _ phase (State.roomFor_staging (State.roomFor_of_judge_accept accepted)) ?_
    simp only [offeredVersion, other, if_false, received_seq]
    rcases held with held | ⟨held, written⟩
    · exact .inl held
    · simp [received, written, held]
  · exact h

/-- A SCRUB offer (R12), and the block listed where it found no room (R50). -/
theorem scrubOffer (h : s.Runs claim t) (b : Nat) (v : Version) (d : Data)
    (phase : s.member.phase ≠ .mounting) : s.Runs claim (t.scrubOffer b v d) := by
  unfold State.scrubOffer State.offer
  cases judged : t.judge b v .scrub with
  | accept =>
    refine h.accept _ _ _ _ phase (State.roomFor_staging (State.roomFor_of_judge_accept judged)) ?_
    exact .inr (.inl (State.clean_of_judge_scrub (.inl judged)).2.symm)
  | busy => exact h.appendScrub b phase (State.clean_of_judge_scrub (.inr judged)).1
  | duplicate | stale _ => exact h

/-! ## Phase changes -/

theorem showOwn (h : s.Runs claim t) (p : RunPhase) : s.Runs claim (t.showOwn p) := h.setPeer _ _

theorem notice (h : s.Runs claim t) (p : RunPhase) : s.Runs claim (t.notice p) := by
  cases p with
  | listening => exact h.endFetch.clearServe.stopCursor
  | catchingUp => exact h
  | online => exact h.stopCursor
  | isolated =>
    have finished := h.foldl (f := State.isolateProposalAt) (fun _ _ hu => hu.finishProposal ..)
      (List.finRange 8)
    exact finished.isolateReads.isolateServeSlot.isolateServeQueue.stopCursor

theorem enterPhase (h : s.Runs claim t) (p : RunPhase)
    (phase : s.member.phase ≠ .mounting ∨ t.media.port = none) :
    s.Runs claim (t.enterPhase p) :=
  (((h.member _ (.inr phase)).showOwn p).raise ..).notice p

theorem enterFaulted (h : s.Runs claim t) (r : FaultReason)
    (phase : s.member.phase ≠ .mounting ∨ t.media.port = none) :
    s.Runs claim (t.enterFaulted r) := by
  unfold State.enterFaulted
  split
  · exact h
  · exact State.Runs.mount _
      (State.Runs.restate QueuedFrame.cut (fun _ => rfl) ((h.member _ (.inr phase)).raise ..))

theorem applyJoin (h : s.Runs claim t) (o : CatchUpOrigin) (phase : s.member.phase ≠ .mounting) :
    s.Runs claim (t.applyJoin o) := by
  unfold State.applyJoin
  split
  · exact h
  · exact h.enterPhase _ (.inl phase)
  · exact ((h.member _ (.inl rfl)).startCursor _).enterPhase _ (.inl phase)

theorem abandonCatchUp (h : s.Runs claim t) (phase : s.member.phase ≠ .mounting) :
    s.Runs claim t.abandonCatchUp := by
  have stopped : s.Runs claim (t.stopCursor.onMember fun m => { m with origin := none }) :=
    h.stopCursor.member _ (.inl rfl)
  have entered := fun p => stopped.enterPhase p (.inl phase)
  unfold State.abandonCatchUp
  dsimp only
  split
  · split
    · exact (entered _).applyJoin _ phase
    · exact entered _
  · exact (entered _).applyJoin _ phase

theorem completeCatchUp (h : s.Runs claim t) (phase : s.member.phase ≠ .mounting) :
    s.Runs claim t.completeCatchUp :=
  (h.member _ (.inl rfl)).enterPhase _ (.inl phase)

theorem phaseTest (h : s.Runs claim t) (phase : s.member.phase ≠ .mounting) :
    s.Runs claim t.phaseTest := by
  unfold State.phaseTest
  split
  · split
    · exact h.applyJoin _ phase
    · exact h
  · split
    · exact h.abandonCatchUp phase
    · exact h
  · split
    · exact h.enterPhase _ (.inl phase)
    · exact h
  · split
    · exact h.applyJoin _ phase
    · exact h
  · exact h
  · exact h

theorem heard (h : s.Runs claim t) (n : StationNo) (phase : s.member.phase ≠ .mounting) :
    s.Runs claim (t.heard n) := by
  unfold State.heard
  dsimp only
  split
  · exact ((h.setPeer _ _).raise ..).phaseTest phase
  · exact ((h.setPeer _ _).raise ..).phaseTest phase
  · exact h.setPeer _ _
  · exact h.setPeer _ _

theorem heartbeatMatches (h : s.Runs claim t) (n : StationNo) (p : RunPhase) (clock : BitVec 32)
    (phase : s.member.phase ≠ .mounting) : s.Runs claim (t.heartbeatMatches n p clock) := by
  have shown := (State.Runs.learn clock h).setPeer n
    ⟨.present, some p, clock, none, t.silenceWindow⟩
  unfold State.heartbeatMatches
  dsimp only
  split
  · exact (shown.raise ..).phaseTest phase
  · exact (shown.raise ..).phaseTest phase
  · exact (shown.raise ..).phaseTest phase
  · split
    · exact shown
    · exact shown.phaseTest phase

theorem heartbeatConflicts (h : s.Runs claim t) (n : StationNo) (r : ConflictReason)
    (phase : s.member.phase ≠ .mounting) : s.Runs claim (t.heartbeatConflicts n r) := by
  have refused := h.setPeer n { t.peer n with
    state := .conflict, reported := none, reason := some r, silence := t.silenceWindow }
  unfold State.heartbeatConflicts
  dsimp only
  split
  · exact (refused.raise ..).phaseTest phase
  · exact (refused.raise ..).phaseTest phase
  · exact ((refused.raise ..).peerLost n).phaseTest phase
  · split
    · exact refused
    · exact refused.raise ..

theorem fallSilent (h : s.Runs claim t) (n : StationNo) (phase : s.member.phase ≠ .mounting) :
    s.Runs claim (t.fallSilent n) := by
  have told := (h.setPeer n { t.peer n with
    state := .silent, reported := none, reason := none, silence := none }).raise
      .peerSilent (.station n) .none
  unfold State.fallSilent
  dsimp only
  split
  · exact (told.peerLost n).phaseTest phase
  · exact told.phaseTest phase

/-! ## The serve slot, the cursor and the reports -/

theorem placeAnswer (h : s.Runs claim t) (job : ServeJob) (last : Bool) (b : Body) :
    s.Runs claim (t.placeAnswer job last b) := (h.setServe _).bumpId.place _ _

theorem readForServe (h : s.Runs claim t) (job : ServeJob) (b : Nat) :
    s.Runs claim (t.readForServe job b) := (h.setServe _).requestEngine ..

theorem answerNotHeld (h : s.Runs claim t) (job : ServeJob) (b : BitVec 16) :
    s.Runs claim (t.answerNotHeld job b) := (h.setServe _).send ..

theorem serveFetch (h : s.Runs claim t) (job : ServeJob) (b : BitVec 16) :
    s.Runs claim (t.serveFetch job b) := by
  unfold State.serveFetch
  dsimp only
  split
  · exact h.answerNotHeld ..
  · exact h.answerNotHeld ..
  · exact h.placeAnswer ..
  · exact h.readForServe ..

theorem serveDigest (h : s.Runs claim t) (job : ServeJob) (range : Fin 64)
    (versions : Vector Version 64) : s.Runs claim (t.serveDigest job range versions) := by
  unfold State.serveDigest
  dsimp only
  split
  · split
    · split
      · exact h.placeAnswer ..
      · exact h.readForServe ..
    · split
      · exact h.setServe _
      · exact h.setServe _
  · exact h.placeAnswer ..

theorem serveStep {u : State} (h : s.Runs claim t) (went : t.serveStep = some u) :
    s.Runs claim u := by
  unfold State.serveStep at went
  split at went
  · split at went
    · cases went
    · rename_i r rest queued
      obtain rfl := Option.some.inj went
      have shorter : rest.length ≤ t.repair.serveQueue.length := by simp [queued]
      exact (h.serveQueue (fun _ => rest) shorter).setServe _
  · split at went
    · split at went
      · obtain rfl := Option.some.inj went
        exact h.serveFetch ..
      · obtain rfl := Option.some.inj went
        exact h.serveDigest ..
    · cases went

theorem reportServe (h : s.Runs claim t) (r : ReadRequest) (m : MediaReport) :
    s.Runs claim (t.reportServe r m) := by
  unfold State.reportServe
  dsimp only
  split
  · exact h
  · split
    · cases m with
      | readable v d =>
        dsimp only
        split
        · exact h.placeAnswer ..
        · exact h.placeAnswer ..
      | declined | unreadable => exact h.setServe _
    · exact h

theorem placePush (h : s.Runs claim t) (b : Nat) (v : Version) (d : Data) :
    s.Runs claim (t.placePush b v d) := by
  unfold State.placePush
  split
  · exact h
  · exact (h.onCursor _).bumpId.place _ _

theorem startPush (h : s.Runs claim t) (b : Nat) : s.Runs claim (t.startPush b) := by
  unfold State.startPush
  dsimp only
  split
  · exact h.placePush ..
  · exact (h.onCursor _).requestEngine ..
  · exact h.onCursor _
  · exact h.onCursor _

theorem rangeDone (h : s.Runs claim t) (phase : s.member.phase ≠ .mounting) :
    s.Runs claim t.rangeDone := by
  unfold State.rangeDone
  split
  · exact (h.onCursor _).startDigest
  · exact (h.onCursor _).completeCatchUp phase

theorem cursorStep {u : State} (h : s.Runs claim t) (phase : s.member.phase ≠ .mounting)
    (went : t.cursorStep = some u) : s.Runs claim u := by
  unfold State.cursorStep at went
  dsimp only at went
  repeat' split at went
  all_goals first
    | cases went; done
    | (obtain rfl := Option.some.inj went
       first
        | exact h.startPush _
        | exact h.rangeDone phase
        | exact h.failAttempt)

theorem reportCursor (h : s.Runs claim t) (r : ReadRequest) (m : MediaReport) :
    s.Runs claim (t.reportCursor r m) := by
  unfold State.reportCursor
  split
  · cases m with
    | readable v d => exact h.placePush ..
    | declined | unreadable => exact h.onCursor _
  · exact h

theorem fetchStep {u : State} (h : s.Runs claim t) (went : t.fetchStep = some u) :
    s.Runs claim u := by
  unfold State.fetchStep at went
  split at went
  · obtain rfl := Option.some.inj went
    exact h.takeRepairHead
  · cases went

theorem report (h : s.Runs claim t) (r : ReadRequest) (m : MediaReport) :
    s.Runs claim (t.report r m) := by
  unfold State.report
  split
  · exact h.reportClient ..
  · exact h.reportServe ..
  · exact h.reportCursor ..

end State.Runs

end Sys2Proof.Machine
end

section
/-! PROOF. The media arbiter and settling as moves: a relocation, a write and a read taken, the
answers of the sector memory, and the units going on (R26 to R36, log 8). -/

namespace Sys2Proof.Machine

/-! ## The start of a write, apart from the spare it takes -/

/-- The spare pool without one of its spares (R36). -/
def State.dropSpare (s : State) (n : Nat) : State :=
  s.onMedia fun m => { m with spares := m.spares.filter (· ≠ n) }

/-- SPARE_LOW is raised as the taking of a spare leaves 8 of more (R36). -/
theorem State.takeSpare_of_live {s : State} (live : s.live = true) (n : Nat) :
    s.takeSpare n =
      if (s.media.spares.filter (· ≠ n)).length = 8 ∧ s.media.spares.length ≠ 8 then
        (s.dropSpare n).raise .spareLow .none (.count 8)
      else s.dropSpare n :=
  if_pos live

theorem State.takeSpare_of_not_live {s : State} (live : ¬ s.live = true) (n : Nat) :
    s.takeSpare n = s :=
  if_neg live

theorem State.takeSpare_startHead (s : State) (e : StagingEntry) (rest : List StagingEntry)
    (n : Nat) : (s.startHead e rest).takeSpare n = (s.takeSpare n).startHead e rest := by
  by_cases live : s.live = true
  · have same : (s.startHead e rest).media.spares = s.media.spares := rfl
    rw [State.takeSpare_of_live live,
      State.takeSpare_of_live (s := s.startHead e rest) live, same]
    split <;> rfl
  · rw [State.takeSpare_of_not_live live,
      State.takeSpare_of_not_live (s := s.startHead e rest) live]

theorem State.noSpare_startHead (s : State) (e : StagingEntry) (rest : List StagingEntry)
    (b : Nat) : (s.startHead e rest).noSpare b = (s.noSpare b).startHead e rest := by
  have live : (s.startHead e rest).live = s.live := rfl
  have exhausted : (s.startHead e rest).media.sparesExhausted = s.media.sparesExhausted := rfl
  unfold State.noSpare
  rw [live, exhausted]
  split <;> rfl

theorem State.takeSpare_port (s : State) (n : Nat) :
    (s.takeSpare n).media.port = s.media.port := by
  by_cases live : s.live = true
  · rw [State.takeSpare_of_live live]
    split <;> simp [State.dropSpare]
  · rw [State.takeSpare_of_not_live live]

theorem State.noSpare_port (s : State) (b : Nat) : (s.noSpare b).media.port = s.media.port := by
  unfold State.noSpare
  split <;> simp

theorem State.headWaiting_iff (s : State) :
    s.headWaiting = true ↔ ∃ e rest, s.store.staging = e :: rest ∧ e.state = .waiting := by
  unfold State.headWaiting
  split <;> rename_i h <;> simp [h]

namespace State.Runs

variable {s t : State} {claim : Option Version}

/-! ## A write and its relocations -/

theorem takeSpare (h : s.Runs claim t) (n : Nat) : s.Runs claim (t.takeSpare n) := by
  have taken : s.Runs claim (t.dropSpare n) :=
    h.pool _ t.media.sparesExhausted List.filter_sublist
  by_cases live : t.live = true
  · rw [State.takeSpare_of_live live]
    split
    · exact taken.raise ..
    · exact taken
  · rw [State.takeSpare_of_not_live live]
    exact h

theorem noSpare (h : s.Runs claim t) (b : Nat) : s.Runs claim (t.noSpare b) := by
  have noted : s.Runs claim (t.onMedia fun m => { m with sparesExhausted := true }) :=
    h.pool t.media.spares true (.refl _)
  unfold State.noSpare
  split
  · exact noted.raise ..
  · exact h

theorem programCopy (h : s.Runs claim t) {op next : WriteOp} (n : Nat) (previous : Option Nat)
    (port : t.media.port = some (.write op)) (block : next.block = op.block)
    (version : next.version = op.version) : s.Runs claim (t.programCopy next n previous) :=
  h.goOn op _ _ port block version

theorem relocate (h : s.Runs claim t) {op : WriteOp} (previous : Option Nat) (written : Bool)
    (port : t.media.port = some (.write op)) : s.Runs claim (t.relocate op previous written) := by
  unfold State.relocate
  split
  · rename_i n _
    exact (h.takeSpare n).programCopy n previous ((t.takeSpare_port n).trans port) rfl rfl
  · exact (h.noSpare op.block).goOn op _ _ ((t.noSpare_port op.block).trans port) rfl rfl

theorem callRelocation (h : s.Runs claim t) {op : WriteOp} (owed : Option Nat) (n : Nat)
    (written : Bool) (port : t.media.port = some (.write op)) :
    s.Runs claim (t.callRelocation op owed n written) := by
  cases owed with
  | none => exact h.relocate _ _ port
  | some k => exact h.goOn op _ _ port rfl rfl

theorem afterMark (h : s.Runs claim t) : s.Runs claim t.afterMark := by
  unfold State.afterMark
  split
  · rename_i op port
    split
    · split
      · exact h.relocate _ _ port
      · exact h
    · exact h
    · exact h
  · exact h

theorem answerStep (h : s.Runs claim t) : s.Runs claim t.answerStep := by
  unfold State.answerStep
  split
  · rename_i steps
    exact h.answer _ (by simp [steps])
  · exact h.afterMark
  · exact h

theorem answerSteps (h : s.Runs claim t) (k : Nat) : s.Runs claim (t.answerSteps k) := by
  induction k generalizing t with
  | zero => exact h
  | succ k ih => exact ih h.answerStep

theorem retirePrevious (h : s.Runs claim t) (previous : Option Nat) :
    s.Runs claim (t.retirePrevious previous) := by
  unfold State.retirePrevious
  split
  · exact h
  · split
    · exact h.retire _
    · exact h

theorem afterVerify (h : s.Runs claim t) {op : WriteOp} (owed : Option Nat) (n : Nat)
    (result : VerifyResult) (port : t.media.port = some (.write op)) :
    s.Runs claim (t.afterVerify op owed n result) := by
  unfold State.afterVerify
  cases result with
  | good => exact h.goOn op _ _ port rfl rfl
  | weak | failed =>
    dsimp only
    split
    · exact h.callRelocation _ _ _ port
    · exact h.goOn op _ _ port rfl rfl

theorem verify (h : s.Runs claim t) (programError : Bool) (reading : Reading) :
    s.Runs claim (t.verify programError reading) := by
  unfold State.verify
  split
  · rename_i op port
    split
    · rename_i n previous _
      have answered : s.Runs claim t.lastStep := h.answerSteps _
      refine (answered.retirePrevious previous).afterVerify _ _ _ ?_
      unfold State.retirePrevious
      (repeat' split) <;> exact port
    · exact h
    · exact h
  · exact h

/-- The write of a WAITING staging head is taken at the free port, at a sector or at a spare. -/
theorem takeWrite (h : s.Runs claim t) (free : t.media.port = none)
    (waiting : t.headWaiting = true) : s.Runs claim t.takeWrite := by
  obtain ⟨e, rest, staging, he⟩ := t.headWaiting_iff.mp waiting
  unfold State.takeWrite
  simp only [staging]
  split
  · exact h.startHead e rest _ _ staging he free rfl rfl
  · unfold State.relocate
    split
    · rename_i n _
      rw [State.takeSpare_startHead]
      exact (h.takeSpare n).startHead e rest _ _ (by simpa using staging) he
        ((t.takeSpare_port n).trans free) rfl rfl
    · rw [State.noSpare_startHead]
      exact (h.noSpare _).startHead e rest _ _ (by simpa using staging) he
        ((t.noSpare_port _).trans free) rfl rfl

/-! ## The arbiter -/

theorem tryRead (h : s.Runs claim t) (r : ReadRequest) (free : t.media.port = none) :
    s.Runs claim (t.tryRead r) := by
  unfold State.tryRead
  dsimp only
  split
  · exact h.passOver.readSector r _ _ (by simpa using free)
  · exact h.report ..

theorem arbiterLow {u : State} (h : s.Runs claim t) (free : t.media.port = none)
    (went : t.arbiterLow = some u) : s.Runs claim u := by
  unfold State.arbiterLow at went
  split at went
  · rename_i r rest _
    obtain rfl := Option.some.inj went
    have taken : s.Runs claim (t.onMedia fun m => { m with engineRequests := rest }) :=
      h.requests _ rfl
    exact taken.tryRead r free
  · split at went
    · rename_i waiting
      obtain rfl := Option.some.inj went
      exact h.takeWrite free waiting
    · split at went
      · rename_i b rest listed
        split at went
        · obtain rfl := Option.some.inj went
          exact h.readScrub b rest _ _ listed free
        · cases went
      · cases went

theorem arbiterStep {u : State} (h : s.Runs claim t) (went : t.arbiterStep = some u) :
    s.Runs claim u := by
  unfold State.arbiterStep at went
  split at went
  · cases went
  · rename_i busy
    have free : t.media.port = none := by simpa using busy
    split at went
    · rename_i passed
      obtain rfl := Option.some.inj went
      exact h.takeWrite free passed.2
    · split at went
      · rename_i r rest _
        obtain rfl := Option.some.inj went
        have taken : s.Runs claim (t.onMedia fun m => { m with clientRequests := rest }) :=
          h.requests _ rfl
        exact taken.tryRead r free
      · exact h.arbiterLow free went

/-! ## Settling -/

theorem progress {u : State} (h : s.Runs claim t) (phase : s.member.phase ≠ .mounting)
    (went : t.progress = some u) : s.Runs claim u := by
  simp only [State.progress, Option.orElse_eq_orElse, Option.orElse_eq_or,
    Option.or_eq_some_iff] at went
  rcases went with went | ⟨-, went⟩
  · split at went
    · simp only [Option.or_eq_some_iff] at went
      rcases went with went | ⟨-, went | ⟨-, went⟩⟩
      · exact h.serveStep went
      · exact h.cursorStep phase went
      · exact h.fetchStep went
    · cases went
  · exact h.arbiterStep went

theorem settleFor (h : s.Runs claim t) (phase : s.member.phase ≠ .mounting) (n : Nat) :
    s.Runs claim (State.settleFor n t) := by
  induction n generalizing t with
  | zero => exact h
  | succ n ih =>
    unfold State.settleFor
    split
    · rename_i went
      exact ih (h.progress phase went)
    · exact h

end State.Runs

/-- A station that takes part in the line is not mounting. -/
theorem State.phase_ne_mounting_of_live {s : State} (h : s.live = true) :
    s.member.phase ≠ .mounting := by
  intro mounting
  simp [State.live, mounting, Phase.running] at h

/-- The units go on by moves: settling is a run of its own. -/
theorem State.Runs.settle (s : State) : s.Runs none s.settle := by
  unfold State.settle
  split
  · rename_i live
    exact State.Runs.refl.settleFor (State.phase_ne_mounting_of_live live) _
  · exact .refl

end Sys2Proof.Machine
end

section
/-! PROOF. The commands that the outside of the station gives, as moves: the resets and the tick, the
media port, the line, the client port and the expiries. -/

namespace Sys2Proof.Machine

/-! ## A command is one run, or a few -/

/-- The sequence of a local write that was accepted becomes the clock (R3, R124). -/
def State.learnClaim (s : State) : Option Version → State
  | none => s
  | some v => s.learn v.seq

/-- A command goes from s to t: by a run of moves, and, once the version that a local write claims is
the clock or the mount has ended, by further ones. -/
def State.Goes (s t : State) : Prop :=
  ∃ claim u, s.Runs claim u ∧
    Relation.ReflTransGen (fun v w : State => v.Runs none w) (u.learnClaim claim) t

theorem State.Goes.settle {s t : State} (h : s.Goes t) : s.Goes t.settle := by
  obtain ⟨claim, u, first, second⟩ := h
  exact ⟨claim, u, first, second.tail (State.Runs.settle t)⟩

namespace State.Runs

variable {s t : State} {claim : Option Version}

theorem goes (h : s.Runs none t) : s.Goes t := ⟨none, t, h, .refl⟩

/-- The units go on at the end of a command of a station that is not mounting. -/
theorem settled (h : s.Runs claim t) (phase : s.member.phase ≠ .mounting) :
    s.Runs claim t.settle := by
  unfold State.settle
  split
  · exact h.settleFor phase _
  · exact h

/-! ## The tick -/

theorem countTick (h : s.Runs claim t) : s.Runs claim t.countTick := by
  have counted : s.Runs claim (t.onMember fun m => { m with tick := m.tick + 1#32 }) :=
    h.member _ (.inl rfl)
  exact counted.window Window.count rfl

theorem countTimer_phase (m : Membership) (n : Nat) : (m.countTimer n).phase = m.phase := by
  unfold Membership.countTimer
  (repeat' split) <;> rfl

theorem countWindows (h : s.Runs claim t) : s.Runs claim t.countWindows := by
  have member : s.Runs claim (t.onMember fun m => m.countWindows t.interval) :=
    h.member _ (.inl (countTimer_phase _ _))
  have writes : s.Runs claim ((t.onMember fun m => m.countWindows t.interval).onWrites fun w =>
      ⟨w.proposals.map fun p => { p with window := p.window.count }⟩) :=
    member.writes _ fun i => by
      simp only [vector_get_map]
      exact ⟨rfl, Iff.rfl, Iff.rfl⟩
  have reads := writes.reads (fun r => ⟨r.entries.map fun e =>
        { e with queryWindow := e.queryWindow.count, fetchWindow := e.fetchWindow.count,
                 backOff := e.backOff.count }⟩) fun i => by
      simp only [vector_get_map]
      exact ⟨rfl, Iff.rfl, Iff.rfl⟩
  exact (reads.onFetch _).onCursor _

/-! ## The media port -/

theorem failPort (h : s.Runs claim t) : s.Runs claim t.failPort := by
  unfold State.failPort
  split
  · exact h.freePort.enterFaulted _ (.inr rfl)
  · exact h.freePort

theorem applyRead (h : s.Runs claim t) (b : Nat) (v : Version) (outcome : ReadOutcome)
    (phase : s.member.phase ≠ .mounting) : s.Runs claim (t.applyRead b v outcome) := by
  unfold State.applyRead
  split
  · rename_i clean
    cases outcome with
    | clean _ | corrected _ => exact h
    | weak d =>
      dsimp only
      split
      · exact h
      · exact h.scrubOffer b v d phase
    | unreadable => exact h.lostByRead b phase clean
  · exact h

theorem applyScrub (h : s.Runs claim t) (b : Nat) (v : Version) (outcome : ReadOutcome)
    (phase : s.member.phase ≠ .mounting) : s.Runs claim (t.applyScrub b v outcome) := by
  unfold State.applyScrub
  split
  · exact h.scrubOffer _ _ _ phase
  · split
    · rename_i clean
      exact h.lostByRead b phase clean
    · exact h

theorem leavePort (h : s.Runs claim t) {op : WriteOp} (written : Bool) (final : Option Nat)
    (port : t.media.port = some (.write op)) (phase : t.live = true → s.member.phase ≠ .mounting) :
    s.Runs claim (t.leavePort op written final) := by
  unfold State.leavePort
  split
  · rename_i live
    exact (h.applyWrite op written final port).settled (phase live)
  · exact h.freePort

end State.Runs

theorem State.noSpare_live (s : State) (b : Nat) : (s.noSpare b).live = s.live := by
  have station : (s.noSpare b).control = s.control ∧ (s.noSpare b).member = s.member := by simp
  simp only [State.live, State.awake, State.released, station]

theorem State.completeWrite_runs (s : State) : s.Runs none s.completeWrite := by
  unfold State.completeWrite
  split
  · rename_i op port
    split
    · exact State.Runs.refl.leavePort _ _ port State.phase_ne_mounting_of_live
    · split
      · exact .refl
      · refine (State.Runs.refl.noSpare _).leavePort _ _ ((s.noSpare_port _).trans port) ?_
        exact fun live => State.phase_ne_mounting_of_live ((s.noSpare_live _).symm.trans live)
    · exact .refl
  · exact .refl

theorem State.completeRead_runs (s : State) (reading : Reading) :
    s.Runs none (s.completeRead reading) := by
  unfold State.completeRead
  split
  · dsimp only
    split
    · rename_i live
      have phase := State.phase_ne_mounting_of_live live
      exact ((State.Runs.refl.freePort.applyRead _ _ _ phase).report _ _).settled phase
    · exact State.Runs.refl.freePort
  · exact .refl

theorem State.completeScrub_runs (s : State) (reading : Reading) :
    s.Runs none (s.completeScrub reading) := by
  unfold State.completeScrub
  split
  · dsimp only
    split
    · rename_i live
      have phase := State.phase_ne_mounting_of_live live
      exact (State.Runs.refl.freePort.applyScrub _ _ _ phase).settled phase
    · exact State.Runs.refl.freePort
  · exact .refl

/-! ## Mount -/

/-- Mount ends with the port free, and the units go on from LISTENING (R71, R108). -/
theorem State.Runs.endMount {s t : State} (h : s.Runs none t.freePort) (lineActive : Bool) :
    s.Goes (t.endMount lineActive) := by
  have ended : s.Runs none (t.freePort.onMount fun _ => .reset) := h.mount _
  have told : ∃ u, s.Runs none u ∧ u.media.port = none ∧
      t.endMount lineActive = (((u.enterPhase .listening).onMember fun m => { m with
        heartbeatTimer := some t.interval, listenWindow := some (3 * t.interval) }).onLine
          fun l => { l with ignoring := lineActive }).settle := by
    by_cases low : (t.freePort.onMount fun _ => .reset).media.spares.length ≤ Config.spareLow
    · exact ⟨_, ended.raise .spareLow .none (.count t.media.spares.length), rfl, by
        simp only [State.endMount, low, if_true]
        rfl⟩
    · exact ⟨_, ended, rfl, by simp only [State.endMount, low, if_false]⟩
  obtain ⟨u, went, free, same⟩ := told
  have listens : s.Runs none ((u.enterPhase .listening).onMember fun m => { m with
      heartbeatTimer := some t.interval, listenWindow := some (3 * t.interval) }) :=
    (went.enterPhase .listening (.inr free)).member _ (.inl rfl)
  rw [same]
  exact (listens.note (fun l => { l with ignoring := lineActive }) ⟨rfl, rfl, .inl rfl⟩).goes.settle

theorem State.recordFinding_goes (s : State) {n : Nat} (f : Finding) (lineActive : Bool)
    (port : s.media.port = some (.scanRead n)) : s.Goes (s.recordFinding n f lineActive) := by
  have recorded : s.Runs none (s.onMount fun t => { t with findings := t.findings ++ [f] }) :=
    State.Runs.refl.mount _
  unfold State.recordFinding
  dsimp only
  split
  · refine State.Runs.goes (State.Runs.scanNext n ?_ recorded)
    exact port
  · unfold State.nextMark
    split
    · refine State.Runs.endMount (State.Runs.resolveEnd _ n ?_ recorded) lineActive
      exact port
    · refine State.Runs.goes (State.Runs.resolveMark _ n _ ?_ recorded)
      exact port

theorem State.nextMark_goes (s : State) {n : Nat} (lineActive : Bool)
    (port : s.media.port = some (.retireMark n)) :
    s.Goes ((s.onMount fun t => { t with marking := t.marking.drop 1 }).nextMark lineActive) := by
  have marked : s.Runs none (s.onMount fun t => { t with marking := t.marking.drop 1 }) :=
    State.Runs.refl.mount _
  unfold State.nextMark
  split
  · exact marked.freePort.endMount lineActive
  · refine State.Runs.goes (State.Runs.markNext n _ ?_ marked)
    exact port

/-! ## The line -/

/-- The frames that the line controller marks keep what they carry. -/
theorem State.Runs.markFrame {s t : State} {claim : Option Version} (h : s.Runs claim t) (id : Nat)
    (state : FrameState) : s.Runs claim (t.markFrame id state) :=
  h.restate (fun q => if q.id = id then { q with state := state } else q) fun q => by split <;> rfl

namespace State.Runs

variable {s t : State} {claim : Option Version}

theorem endIgnored (h : s.Runs claim t) : s.Runs claim t.endIgnored :=
  h.note _ ⟨rfl, rfl, .inl rfl⟩

theorem startAttempt (h : s.Runs claim t) : s.Runs claim t.startAttempt := by
  unfold State.startAttempt
  split
  · exact h.markFrame _ _
  · exact h

theorem takeReplacement (h : s.Runs claim t) : s.Runs claim t.takeReplacement :=
  h.note _ ⟨rfl, rfl, .inr rfl⟩

end State.Runs

theorem State.loseAttempt_runs (s : State) (q : QueuedFrame) (withdrawn : Bool) :
    s.Runs none (s.loseAttempt q withdrawn) := by
  unfold State.loseAttempt
  dsimp only
  split
  · exact State.Runs.refl.leave _
  · split
    · rename_i f held
      exact ((State.Runs.refl.markFrame _ _).replace _ f (.inr held)).takeReplacement
    · exact State.Runs.refl.markFrame _ _

theorem State.winAttempt_runs (s : State) (q : QueuedFrame) (withdrawn : Bool) :
    s.Runs none (s.winAttempt q withdrawn) := by
  unfold State.winAttempt
  dsimp only
  split
  · rename_i f held
    exact (State.Runs.refl.markFrame _ _).takeReplacement.beat f (.inr held)
  · exact State.Runs.refl.markFrame _ _

theorem State.pastArbitration_runs (s : State) (q : QueuedFrame) :
    s.Runs none (s.pastArbitration q) := by
  unfold State.pastArbitration
  split
  · exact s.winAttempt_runs q _
  · exact .refl

/-- What the other heartbeat holds is a heartbeat. -/
theorem State.otherHeartbeat_isHeartbeat {s : State} {id other : Nat} {f : Frame}
    (h : s.otherHeartbeat id = some (other, f)) : f.isHeartbeat = true := by
  unfold State.otherHeartbeat at h
  split at h
  · rename_i q found
    have test := List.find?_some found
    simp only [Bool.and_eq_true] at test
    obtain ⟨-, rfl⟩ := Prod.mk.inj (Option.some.inj h)
    exact test.1
  · obtain ⟨w, found, same⟩ := Option.map_eq_some_iff.mp h
    obtain ⟨-, rfl⟩ := Prod.mk.inj same
    exact List.find?_some (p := fun w : WaitingFrame => w.frame.isHeartbeat) found

namespace State.Runs

variable {s t : State} {claim : Option Version}

theorem mergeHeartbeat (h : s.Runs claim t) (id : Nat) : s.Runs claim (t.mergeHeartbeat id) := by
  unfold State.mergeHeartbeat
  split
  · rename_i other f found
    exact (h.replace id f (.inl (State.otherHeartbeat_isHeartbeat found))).withdraw other
  · exact h

theorem stopFrame (h : s.Runs claim t) (q : QueuedFrame) : s.Runs claim (t.stopFrame q) := by
  unfold State.stopFrame
  dsimp only
  split
  · exact h.leave _
  · exact h.leave _
  · split
    · exact (h.markFrame _ _).mergeHeartbeat _
    · exact h.markFrame _ _

theorem completeAtProposal (h : s.Runs claim t) (id : Nat) (i : Fin 8) :
    s.Runs claim (t.completeAtProposal id i) := by
  unfold State.completeAtProposal
  dsimp only
  split
  · rename_i sending
    have completed : s.Runs claim (t.setProposal i { t.proposal i with
        state := .awaiting, window := some (2 * t.interval), frames := [] }) :=
      h.setProposal (.of_running rfl rfl (by simp [Proposal.running, sending.1]))
    exact completed
  · exact h

theorem completeAtRead (h : s.Runs claim t) (id : Nat) (i : Fin 4) :
    s.Runs claim (t.completeAtRead id i) := by
  unfold State.completeAtRead
  dsimp only
  split
  · split
    · rename_i asking
      refine State.Runs.setRead h (.of_running rfl rfl ?_)
      simp [ReadEntry.running, asking]
    · rename_i asking
      refine State.Runs.setRead h (.of_running rfl rfl ?_)
      simp [ReadEntry.running, asking]
    · exact State.Runs.setRead h ⟨rfl, Iff.rfl, Iff.rfl⟩
  · exact h

theorem completeAtFetch (h : s.Runs claim t) (id : Nat) : s.Runs claim (t.completeAtFetch id) := by
  unfold State.completeAtFetch
  dsimp only
  split
  · split
    · exact h.onFetch _
    · exact h.onFetch _
  · exact h

theorem completeAtCursor (h : s.Runs claim t) (id : Nat) :
    s.Runs claim (t.completeAtCursor id) := by
  unfold State.completeAtCursor
  dsimp only
  split
  · split
    · exact h.onCursor _
    · exact h.onCursor _
    · exact h.onCursor _
  · exact h.onCursor _

theorem completed (h : s.Runs claim t) (id : Nat) : s.Runs claim (t.completed id) := by
  have proposals := h.foldl (f := fun u i => u.completeAtProposal id i)
    (fun _ i hu => hu.completeAtProposal id i) (List.finRange 8)
  have reads := proposals.foldl (f := fun u i => u.completeAtRead id i)
    (fun _ i hu => hu.completeAtRead id i) (List.finRange 4)
  exact (reads.completeAtFetch id).completeAtCursor id

theorem discard (h : s.Runs claim t) : s.Runs claim t.discard := h.note _ ⟨rfl, rfl, .inl rfl⟩

theorem addressConflict (h : s.Runs claim t) (phase : s.member.phase ≠ .mounting) :
    s.Runs claim t.addressConflict := (h.raise ..).enterFaulted _ (.inl phase)

end State.Runs

/-- What a reception that ends does is a run, if what it does at a station of the line is one. -/
theorem State.reception_runs (s : State) (act : State → State)
    (h : s.member.phase ≠ .mounting → s.Runs none (act s)) : s.Runs none (s.reception act) := by
  unfold State.reception
  split
  · rename_i live
    split
    · exact State.Runs.refl.endIgnored
    · exact h (State.phase_ne_mounting_of_live live)
  · exact .refl

/-! ## The client port -/

theorem mergeHeld_length (l : List EventRecord) : (mergeHeld l).length ≤ l.length := by
  cases l with
  | nil => rfl
  | cons r rest =>
    simp only [mergeHeld]
    split
    · exact Nat.le_refl _
    · exact Nat.succ_le_succ (List.length_filter_le ..)

theorem ClientPort.eventsShort_completions (c : ClientPort) :
    c.eventsShort.completions = c.completions := by
  unfold ClientPort.eventsShort
  split <;> rfl

theorem ClientPort.eventsShort_events (c : ClientPort) :
    c.eventsShort.events.length ≤ c.events.length := by
  unfold ClientPort.eventsShort
  split
  · exact mergeHeld_length _
  · exact Nat.le_refl _
  · exact Nat.le_refl _

namespace State.Runs

variable {s t : State} {claim : Option Version}

/-- The transaction becomes one whose completion record, if it holds one, is the head. -/
theorem setTransaction (h : s.Runs claim t) (transaction : Transaction)
    (held : ∀ leading r, transaction = .opened leading (.completion (some r)) →
      t.client.completions.head? = some r) : s.Runs claim (t.setTransaction transaction) :=
  h.client _ ⟨rfl, id, fun _ leading r hr => held leading r hr⟩

theorem closeShort (h : s.Runs claim t) : s.Runs claim t.closeShort := by
  have went : s.Runs claim
      (t.onClient fun c => { c.eventsShort with transaction := .closed }) := by
    refine h.client _ ⟨t.client.eventsShort_completions, ?_, fun _ leading r hr => by cases hr⟩
    exact (t.client.eventsShort_events).trans
  exact went

end State.Runs

/-- A response that carries a completion record carries the head of the completion queue (R183). -/
def Response.HeadOf (r : Response) (s : State) : Prop :=
  ∀ record, r = .completion (some record) → s.client.completions.head? = some record

theorem State.Runs.commandByte {s t : State} {claim : Option Version} (h : s.Runs claim t)
    (response : State → Response) (head : ∀ u, (response u).HeadOf u) :
    s.Runs claim (t.commandByte response) := by
  have opens : ∀ (u : State) leading, s.Runs claim u →
      s.Runs claim (u.setTransaction (.opened leading (response u))) := fun u leading hu =>
    hu.setTransaction _ fun _ r hr => head u r (Transaction.opened.inj hr).2
  unfold State.commandByte
  dsimp only
  split
  · split
    · exact opens t _ h
    · exact opens _ _ h.closeShort
  · exact h

theorem State.commandByte_holdsHead (s : State) (response : State → Response)
    (head : ∀ u, (response u).HeadOf u) (h : s.client.HoldsHead) :
    (s.commandByte response).client.HoldsHead := by
  have opens : ∀ (u : State) leading,
      (u.setTransaction (.opened leading (response u))).client.HoldsHead := fun u leading _ r hr =>
    head u r (Transaction.opened.inj hr).2
  unfold State.commandByte
  dsimp only
  split
  · split
    · exact opens s _
    · exact opens _ _
  · exact h

theorem State.closeShort_completions (s : State) :
    s.closeShort.client.completions = s.client.completions :=
  s.client.eventsShort_completions

/-- A command that ends a transaction goes by moves, if what it does at the closed one does. -/
theorem State.closing_goes (s : State) (act : State → State)
    (h : (∀ claim, s.Runs claim s.closeShort) → s.Goes (act s.closeShort)) :
    s.Goes (s.closing act) := by
  unfold State.closing
  split
  · exact (State.Runs.refl.setTransaction _ fun _ _ hr => by cases hr).goes
  · split
    · exact (h fun _ => State.Runs.refl.closeShort).settle
    · exact State.Runs.refl.goes

theorem State.beforeEnd_holdsHead (s : State) (response : State → Response)
    (head : ∀ u, (response u).HeadOf u) (h : s.client.HoldsHead) :
    (s.beforeEnd response).client.HoldsHead := by
  unfold State.beforeEnd
  split
  · exact s.commandByte_holdsHead response head h
  · exact s.commandByte_holdsHead response head h
  · exact h

theorem State.Runs.beforeEnd {s t : State} {claim : Option Version} (h : s.Runs claim t)
    (response : State → Response) (head : ∀ u, (response u).HeadOf u) :
    s.Runs claim (t.beforeEnd response) := by
  unfold State.beforeEnd
  split
  · exact h.commandByte response head
  · exact h.commandByte response head
  · exact h

theorem State.Runs.endTake {s t : State} {claim : Option Version} (h : s.Runs claim t)
    (holds : s.client.HoldsHead → t.client.HoldsHead) (clocked : Nat) :
    s.Runs claim (t.endTake clocked) := by
  unfold State.endTake
  split
  · rename_i leading r opened
    split
    · refine h.closeShort.remove r (fun hs => ?_) rfl
      rw [State.closeShort_completions]
      exact holds hs leading r opened
    · exact h.closeShort
  · exact h.closeShort

theorem State.Runs.endEvents {s t : State} {claim : Option Version} (h : s.Runs claim t)
    (clocked : Nat) : s.Runs claim (t.endEvents clocked) := by
  have removed : ∀ hold, s.Runs claim ((t.onClient fun c => c.removeHeld hold).setTransaction
      .closed) := by
    intro hold
    have went : s.Runs claim
        (t.onClient fun c => { c.removeHeld hold with transaction := .closed }) := by
      refine h.client _ ⟨?_, ?_, fun _ leading r hr => by cases hr⟩
      · cases hold <;> rfl
      · intro le
        cases hold with
        | marker | dropped _ _ => exact le
        | ordinary _ => exact le_trans (by simp [ClientPort.removeHeld]) le
    exact went
  unfold State.endEvents
  split
  · split
    · exact removed _
    · exact h.closeShort
  · exact h.closeShort

theorem head_of_take (u : State) : (Response.completion u.client.completions.head?).HeadOf u :=
  fun _ hr => Response.completion.inj hr

theorem State.endTake_runs (s : State) (clocked : Nat) :
    s.Runs none ((s.beforeEnd fun s => .completion s.client.completions.head?).endTake clocked) :=
  (State.Runs.refl.beforeEnd _ head_of_take).endTake (s.beforeEnd_holdsHead _ head_of_take) clocked

end Sys2Proof.Machine
end

section
/-! PROOF. The received frames, the submissions and the expiries as moves, and with them every
command: what `exec` makes of a state comes from it by moves. -/

namespace Sys2Proof.Machine

/-! ## The clock under what a frame teaches -/

theorem le_learn (clock seq : BitVec 32) : seq ≤ if clock < seq then seq else clock := by
  split <;> bv_omega

theorem State.le_clock_learn (s : State) (seq : BitVec 32) : seq ≤ (s.learn seq).store.clock :=
  le_learn s.store.clock seq

@[simp] theorem State.offer_clock (s : State) (b : Nat) (v : Version) (d : Data) (source : Source) :
    (s.offer b v d source).1.store.clock = s.store.clock := by
  unfold State.offer
  split
  · simp
  · rfl

theorem State.repairReads_clock (s : State) (n : StationNo) (b : Nat) (v : Version) (d : Data) :
    (s.repairReads n b v d).store.clock = s.store.clock := by
  unfold State.repairReads
  split
  · refine (foldl_keeps (fun u : State => u.store.clock) _ (fun u i => ?_) _ _).trans (by simp)
    unfold State.repairReadAt
    split
    · simp
    · rfl
  · rfl

namespace State.Runs

variable {s t : State} {claim : Option Version}

/-! ## What a delivered frame does -/

theorem deliverUpdate (h : s.Runs none t) (phase : s.member.phase ≠ .mounting) (b : BitVec 16)
    (v : Version) (wanted : StationSet) (relay : Bool) (d : Data) :
    s.Runs none (t.deliverUpdate b v wanted relay d) := by
  have offered : s.Runs none ((t.learn v.seq).offer b.toNat v d
      (if relay then .relay else .peer)).1 :=
    (h.learn v.seq).offer _ _ _ _ phase (by cases relay <;> simp) (.inl (t.le_clock_learn v.seq))
  unfold State.deliverUpdate
  dsimp only
  split
  · exact offered.send _ _
  · exact offered

theorem deliverPush (h : s.Runs none t) (phase : s.member.phase ≠ .mounting) (n : StationNo)
    (b : BitVec 16) (v : Version) (d : Data) : s.Runs none (t.deliverPush n b v d) := by
  have offered : s.Runs none ((t.learn v.seq).offer b.toNat v d .push).1 :=
    (h.learn v.seq).offer _ _ _ _ phase (by simp) (.inl (t.le_clock_learn v.seq))
  unfold State.deliverPush
  split <;> rename_i same
  · rw [same] at offered
    exact (offered.send _ _).send _ _
  · rw [same] at offered
    exact offered.send _ _

theorem countAck (h : s.Runs claim t) (i : Fin 8) (n : StationNo) :
    s.Runs claim (t.countAck i n) := by
  have counted : s.Runs claim (t.setProposal i { t.proposal i with
      acks := addStation (t.proposal i).acks n }) := h.setProposal ⟨rfl, Iff.rfl, Iff.rfl⟩
  unfold State.countAck
  dsimp only
  split
  · exact counted.finishProposal ..
  · exact counted

theorem deliverAck (h : s.Runs claim t) (n : StationNo) (b : BitVec 16) (v : Version)
    (outcome : AckOutcome) : s.Runs claim (t.deliverAck n b v outcome) := by
  have learned : s.Runs claim (t.learnAck v outcome) := by
    unfold State.learnAck
    split
    · exact (h.learn _).learn _
    · exact h.learn _
    · exact h.learn _
  have counted := learned.foldl (f := State.ackProposal n b v outcome) (fun u i hu => by
    unfold State.ackProposal
    dsimp only
    split
    · split
      · exact hu.countAck i n
      · exact hu.finishProposal ..
      · exact hu
    · exact hu) (List.finRange 8)
  unfold State.deliverAck State.ackCursor
  split
  · exact counted.onCursor _
  · exact counted

theorem deliverQuery (h : s.Runs claim t) (n : StationNo) (b : BitVec 16) (wanted : StationSet) :
    s.Runs claim (t.deliverQuery n b wanted) := by
  unfold State.deliverQuery
  split
  · exact h.send _ _
  · exact h

theorem deliverReport (h : s.Runs claim t) (n : StationNo) (b : BitVec 16) (v : Version)
    (held : Bool) : s.Runs claim (t.deliverReport n b v held) := by
  refine (h.learn v.seq).foldl (fun u i hu => ?_) _
  unfold State.reportAt
  dsimp only
  split
  · rename_i collects
    exact hu.enterReport n _ (ReadEntry.running_of_collecting collects.1)
  · exact hu

theorem queueRequest (h : s.Runs claim t) (r : ServeRequest) : s.Runs claim (t.queueRequest r) := by
  unfold State.queueRequest
  split
  · exact h.serveQueue (fun q => q.map fun x => if r.same x then r else x) (by simp)
  · split
    · exact h
    · split
      · rename_i room
        refine h.repair _ (.refl _) fun _ => ?_
        simpa [Config.serveCapacity] using room
      · exact h.send _ _

theorem deliverFetch (h : s.Runs claim t) (n : StationNo) (b : BitVec 16) :
    s.Runs claim (t.deliverFetch n b) := by
  unfold State.deliverFetch
  split
  · exact h.queueRequest _
  · exact h

theorem deliverDigest (h : s.Runs claim t) (n : StationNo) (range : Fin 64)
    (versions : Vector Version 64) : s.Runs claim (t.deliverDigest n range versions) := by
  have learned := h.foldl (f := fun u (v : Version) => u.learn v.seq)
    (fun _ v hu => hu.learn v.seq) versions.toList
  unfold State.deliverDigest
  dsimp only
  split
  · exact learned.queueRequest _
  · exact learned.send _ _

theorem repairReads (h : s.Runs none t) (phase : s.member.phase ≠ .mounting) (n : StationNo)
    (b : Nat) (v : Version) (d : Data) (held : v.seq ≤ t.store.clock) :
    s.Runs none (t.repairReads n b v d) := by
  unfold State.repairReads
  split
  · refine (h.offer b v d .repair phase (by simp) (.inl held)).foldl (fun u i hu => ?_) _
    unfold State.repairReadAt
    split
    · exact hu.finishRead ..
    · exact hu
  · exact h

theorem slotAnswer (h : s.Runs claim t) (a : Answer) : s.Runs claim (t.slotAnswer a) := by
  unfold State.slotAnswer
  cases a with
  | stale _ => exact h.giveUpFetch
  | busy => exact h.fetchBusy
  | accept | duplicate => exact h

theorem cursorAnswer (h : s.Runs claim t) (b : Nat) (a : Answer) :
    s.Runs claim (t.cursorAnswer b a) := by
  unfold State.cursorAnswer
  cases a with
  | stale _ | busy => exact h
  | accept | duplicate =>
    dsimp only
    split
    · exact h.onCursor _
    · exact h

theorem repairEngine (h : s.Runs none t) (phase : s.member.phase ≠ .mounting) (n : StationNo)
    (b : Nat) (v : Version) (d : Data) (held : v.seq ≤ t.store.clock) :
    s.Runs none (t.repairEngine n b v d) := by
  have offered := h.offer b v d .repair phase (by simp) (.inl held)
  have answered : s.Runs none (if t.slotMatches n b then
      (t.offer b v d .repair).1.slotAnswer (t.offer b v d .repair).2
      else (t.offer b v d .repair).1) := by
    split
    · exact offered.slotAnswer _
    · exact offered
  unfold State.repairEngine
  dsimp only
  split
  · split
    · exact answered.cursorAnswer _ _
    · exact answered
  · exact h

theorem deliverRepair (h : s.Runs none t) (phase : s.member.phase ≠ .mounting) (n : StationNo)
    (b : BitVec 16) (v : Version) (d : Data) : s.Runs none (t.deliverRepair n b v d) := by
  have learned := t.le_clock_learn v.seq
  refine ((h.learn v.seq).repairReads phase n _ v d learned).repairEngine phase n _ v d ?_
  rw [State.repairReads_clock]
  exact learned

theorem deliverNotHeld (h : s.Runs claim t) (n : StationNo) (b : BitVec 16) :
    s.Runs claim (t.deliverNotHeld n b) := by
  have moved := h.foldl (f := State.notHeldAt n b.toNat) (fun u i hu => by
    unfold State.notHeldAt
    split
    · rename_i awaits
      exact hu.giveUpTarget (ReadEntry.running_of_awaits awaits)
    · exact hu) (List.finRange 4)
  unfold State.deliverNotHeld State.notHeldSlot
  split
  · exact moved.giveUpFetch
  · exact moved

theorem deliverRangeDone (h : s.Runs claim t) (n : StationNo) (range : Fin 64) (sent : Byte)
    (want : OffsetSet) : s.Runs claim (t.deliverRangeDone n range sent want) := by
  unfold State.deliverRangeDone
  dsimp only
  split
  · unfold State.takeRangeDone
    dsimp only
    split
    · exact (h.onCursor _).onCursor _
    · exact (h.onCursor _).failAttempt
  · exact h

theorem deliverBusy (h : s.Runs claim t) (n : StationNo) (request : RefusedRequest) :
    s.Runs claim (t.deliverBusy n request) := by
  cases request with
  | fetch b =>
    have told := h.foldl (f := State.busyReadAt n b.toNat) (fun u i hu => by
      unfold State.busyReadAt
      dsimp only
      split
      · exact State.Runs.setRead hu ⟨rfl, Iff.rfl, Iff.rfl⟩
      · exact hu) (List.finRange 4)
    unfold State.deliverBusy State.busySlot
    dsimp only
    split
    · exact told.onFetch _
    · exact told
  | digest range =>
    unfold State.deliverBusy State.busyCursor
    dsimp only
    split
    · exact h.onCursor _
    · exact h

theorem deliverNotServing (h : s.Runs claim t) (n : StationNo) (range : Fin 64) :
    s.Runs claim (t.deliverNotServing n range) := by
  unfold State.deliverNotServing
  dsimp only
  split
  · exact h.dropServer
  · exact h

end State.Runs

/-- A frame of a kind other than HEARTBEAT is a run, if its delivery is one. -/
theorem State.receive_runs (s : State) (n : StationNo) (target : Option StationNo)
    (deliver : State → State)
    (h : ∀ t, s.member.phase ≠ .mounting → s.Runs none t → s.Runs none (deliver t)) :
    s.Runs none (s.receive n target deliver) := by
  refine s.reception_runs _ fun phase => ?_
  dsimp only
  split
  · exact State.Runs.refl.addressConflict phase
  · have heard := State.Runs.refl.heard (s := s) (claim := none) n phase
    split
    · exact (h _ phase heard).settled phase
    · exact heard.settled phase

theorem State.judgeHeartbeat_runs (s : State) (n : StationNo) (p : RunPhase) (clock : BitVec 32)
    (group geometry : Byte) (phase : s.member.phase ≠ .mounting) :
    s.Runs none (s.judgeHeartbeat n p clock group geometry) := by
  unfold State.judgeHeartbeat
  split
  · exact State.Runs.refl.heartbeatMatches n p clock phase
  · exact State.Runs.refl.heartbeatConflicts n _ phase

/-! ## The expiries -/

/-- An expiry is a run, if what its owner does is one. -/
theorem State.expire_runs (s : State) (due : Bool) (act : State → State)
    (h : s.member.phase ≠ .mounting → due = true → s.Runs none (act s)) :
    s.Runs none (s.expire due act) := by
  unfold State.expire
  split
  · rename_i acts
    simp only [Bool.and_eq_true] at acts
    have phase := State.phase_ne_mounting_of_live acts.1
    exact (h phase acts.2).settled phase
  · exact .refl

namespace State.Runs

variable {s t : State} {claim : Option Version}

theorem heartbeat (h : s.Runs claim t) : s.Runs claim t.beat := by
  have taken : s.Runs claim (t.onMember fun m => { m with heartbeatDue := false }) :=
    h.member _ (.inl rfl)
  unfold State.beat
  dsimp only
  split
  · exact taken.beat _ (.inl rfl)
  · exact taken

theorem listenExpired (h : s.Runs claim t) (phase : s.member.phase ≠ .mounting) :
    s.Runs claim t.listenExpired := by
  have stopped : s.Runs claim (t.onMember fun m => { m with listenWindow := none }) :=
    h.member _ (.inl rfl)
  unfold State.listenExpired
  dsimp only
  split
  · exact stopped.applyJoin _ phase
  · exact stopped

theorem sendUpdate (h : s.Runs claim t) {i : Fin 8} (running : (t.proposal i).running = true) :
    s.Runs claim (t.sendUpdate i) := by
  have sending : s.Runs claim (t.setProposal i { t.proposal i with
      state := .sending, frames := (t.proposal i).frames ++ [t.line.nextId] }) :=
    h.setProposal (.of_running rfl rfl running)
  exact sending.bumpId.place _ _

theorem ackExpired (h : s.Runs claim t) {i : Fin 8} (awaiting : (t.proposal i).state = .awaiting) :
    s.Runs claim (t.ackExpired i) := by
  unfold State.ackExpired
  dsimp only
  split
  · have again : s.Runs claim (t.setProposal i { t.proposal i with
        attempt := (t.proposal i).attempt + 1, window := none }) :=
      h.setProposal ⟨rfl, Iff.rfl, Iff.rfl⟩
    refine again.sendUpdate ?_
    simp [State.proposal_setProposal, Proposal.running, awaiting]
  · exact h.finishProposal ..

theorem readBackOffEnded (h : s.Runs claim t) (i : Fin 4) :
    s.Runs claim (t.readBackOffEnded i) := by
  have ended : s.Runs claim (t.setRead i { t.readEntry i with backOff := none }) :=
    h.setRead ⟨rfl, Iff.rfl, Iff.rfl⟩
  unfold State.readBackOffEnded
  dsimp only
  split
  · split
    · exact ended
    · exact ended.sendReadFetch ..
  · exact ended

theorem slotBackOffEnded (h : s.Runs claim t) : s.Runs claim t.slotBackOffEnded := by
  have ended : s.Runs claim (t.onFetch fun f => { f with backOff := none }) := h.onFetch _
  unfold State.slotBackOffEnded
  dsimp only
  split
  · exact ended.chooseFetchTarget _
  · exact (ended.onFetch _).sendSlotFetch ..
  · split
    · exact ended.sendSlotFetch ..
    · exact ended
  · exact ended

theorem pushDeadlinePassed (h : s.Runs claim t) : s.Runs claim t.pushDeadlinePassed := by
  unfold State.pushDeadlinePassed
  split
  · exact h.onCursor _
  · exact h.failAttempt

end State.Runs

/-! ## The submissions -/

/-- Whether each entry of the two tables is FREE, and its tag. -/
def State.occupants (s : State) : (Fin 8 → Bool × Byte) × (Fin 4 → Bool × Byte) :=
  (fun i => (decide ((s.proposal i).state = .free), (s.proposal i).tag),
    fun i => (decide ((s.readEntry i).state = .free), (s.readEntry i).tag))

theorem State.occupants_of {s t : State} (writes : t.writes = s.writes) (reads : t.reads = s.reads) :
    t.occupants = s.occupants := by
  unfold State.occupants State.proposal State.readEntry
  rw [writes, reads]

theorem State.free_of_occupants {s t : State} (h : t.occupants = s.occupants) {i : Fin 8}
    (free : (s.proposal i).state = .free) : (t.proposal i).state = .free := by
  have same := congrArg Prod.fst (congrFun (congrArg Prod.fst h) i)
  simpa [State.occupants, free] using same

theorem State.tagInUse_of_occupants {s t : State} (h : t.occupants = s.occupants) (tag : Byte) :
    t.tagInUse tag = s.tagInUse tag := by
  have same : ∀ u : State, u.tagInUse tag =
      (((List.finRange 8).any fun i => !(u.occupants.1 i).1 && decide ((u.occupants.1 i).2 = tag))
        || (List.finRange 4).any fun i =>
          !(u.occupants.2 i).1 && decide ((u.occupants.2 i).2 = tag)) := fun u => by
    simp only [State.tagInUse, State.occupants, ne_eq, decide_not]
    rfl
  rw [same, same, h]

theorem State.occupants_setProposal (s : State) {i : Fin 8} {p : Proposal}
    (h : p.Continues (s.proposal i)) : (s.setProposal i p).occupants = s.occupants := by
  refine Prod.ext (funext fun j => ?_) rfl
  simp only [State.occupants, State.proposal_setProposal]
  split
  · subst j
    simp [h.free, h.tag]
  · rfl

theorem State.occupants_setRead (s : State) {i : Fin 4} {e : ReadEntry}
    (h : e.Continues (s.readEntry i)) : (s.setRead i e).occupants = s.occupants := by
  refine Prod.ext rfl (funext fun j => ?_)
  simp only [State.occupants, State.readEntry_setRead]
  split
  · subst j
    simp [h.free, h.tag]
  · rfl

theorem State.occupants_finishProposal (s : State) (i : Fin 8) (r : Result) (w : Option Version) :
    (s.finishProposal i r w).occupants = s.occupants := by
  by_cases running : (s.proposal i).running = true
  · rw [State.finishProposal_of_running r w running]
    refine (State.occupants_of (s := s.setProposal i { s.proposal i with
      state := .finished, result := some r, winning := w, window := none, frames := [] })
      (by simp) (by simp)).trans ?_
    refine Prod.ext (funext fun j => ?_) rfl
    simp only [State.occupants, State.proposal_setProposal]
    split
    · subst j
      have occupied : (s.proposal i).state ≠ .free := fun free => by
        simp [Proposal.running, free] at running
      simp [occupied]
    · rfl
  · exact congrArg State.occupants (if_neg running)

theorem State.occupants_noteAdvance (s : State) (b : Nat) (v : Version) :
    (s.noteAdvance b v).occupants = s.occupants := by
  refine foldl_keeps State.occupants _ (fun u i => ?_) _ _
  unfold State.noteAdvanceAt
  dsimp only
  split
  · exact u.occupants_setRead ⟨rfl, Iff.rfl, Iff.rfl⟩
  · rfl

theorem State.occupants_advance (s : State) (b : Nat) (v : Version) :
    (s.advance b v).occupants = s.occupants := by
  have superseded : ((List.finRange 8).foldl (fun s i => s.supersedeAt b v i) s).occupants =
      s.occupants := by
    refine foldl_keeps State.occupants _ (fun u i => ?_) _ _
    unfold State.supersedeAt
    dsimp only
    split
    · exact u.occupants_finishProposal ..
    · rfl
  calc (s.advance b v).occupants
    _ = (((List.finRange 8).foldl (fun s i => s.supersedeAt b v i) s).noteAdvance b v).occupants :=
        State.occupants_of (by simp [State.advance]) (by simp [State.advance])
    _ = s.occupants := (State.occupants_noteAdvance _ b v).trans superseded

/-- An acceptance frees no entry, and occupies none (R15). -/
theorem State.occupants_accept (s : State) (b : Nat) (v : Version) (d : Data) (source : Source) :
    (s.accept b v d source).occupants = s.occupants := by
  have repaired : (((s.take b v d source).unlistScrub b).repaired b).occupants = s.occupants := by
    refine State.occupants_of ?_ ?_
    · simp
    · simp
  unfold State.accept
  dsimp only
  split
  · exact (State.occupants_advance _ b v).trans repaired
  · exact repaired

/-- What an accepted SUBMIT WRITE has passed (R123). -/
theorem State.checkWrite_accepted {s : State} {tag : Byte} {b : BitVec 16}
    (h : s.checkWrite tag b = .accepted) :
    s.member.phase = .online ∧ s.tagInUse tag = false ∧ b.toNat < 4096 ∧
      s.store.clock ≠ 0xFFFFFFFF#32 := by
  unfold State.checkWrite at h
  dsimp only at h
  split at h
  · exact absurd h ‹_›
  · rename_i permit
    have online : s.member.phase = .online := by
      cases phase : s.member.phase <;> simp [Phase.quorumPermit, phase] at permit ⊢
    repeat' split at h
    all_goals first
      | cases h; done
      | simp_all [Config.blocks]

/-- What an accepted SUBMIT READ has passed (R143). -/
theorem State.checkRead_accepted {s : State} {permit : SubmitOutcome} {tag : Byte} {b : BitVec 16}
    (h : s.checkRead permit tag b = .accepted) :
    permit = .accepted ∧ s.tagInUse tag = false ∧ b.toNat < 4096 := by
  unfold State.checkRead at h
  repeat' split at h
  all_goals first
    | cases h; done
    | simp_all [Config.blocks]

theorem State.free_of_freeProposal {s : State} {i : Fin 8} (h : s.freeProposal = some i) :
    (s.proposal i).state = .free := by
  simpa using List.find?_some h

theorem State.free_of_freeRead {s : State} {i : Fin 4} (h : s.freeRead = some i) :
    (s.readEntry i).state = .free := by
  simpa using List.find?_some h

theorem State.Runs.startProposal {s t : State} {claim : Option Version} (h : s.Runs claim t)
    {i : Fin 8} {tag : Byte} (b : Nat) (v : Version) (d : Data)
    (free : (t.proposal i).state = .free) (unused : t.tagInUse tag = false) :
    s.Runs claim (t.startProposal i tag b v d) := by
  have occupied := h.claimProposal i { Proposal.empty with
    state := .sending, tag := tag, block := b, version := v, data := d
    acks := addStation 0#8 t.own } free rfl unused
  unfold State.startProposal
  dsimp only
  split
  · exact occupied.finishProposal ..
  · exact occupied.sendUpdate (by simp [State.proposal_setProposal, Proposal.running])

/-- The clock takes the sequence of a local write by learning it (R3, R4). -/
theorem State.learn_next (s : State) {clock : BitVec 32} (same : s.store.clock = clock)
    (h : clock ≠ 0xFFFFFFFF#32) :
    (s.onStore fun st => { st with clock := clock + 1#32 }) = s.learn (clock + 1#32) := by
  have larger : s.store.clock < clock + 1#32 := by
    subst same
    bv_omega
  simp only [State.learn, State.onStore, larger, if_true]

theorem State.seq_next_ne_zero {clock : BitVec 32} (h : clock ≠ 0xFFFFFFFF#32) :
    clock + 1#32 ≠ 0#32 := by
  bv_omega

/-- The LOCAL offer claims its version, and the clock takes it once it is accepted (R3, R124). -/
theorem State.Runs.offerWrite {s t : State} (h : ∀ claim, s.Runs claim t) {i : Fin 8} {tag : Byte}
    (b : Nat) (d : Data) (phase : s.member.phase ≠ .mounting) (free : (t.proposal i).state = .free)
    (unused : t.tagInUse tag = false) (clock : t.store.clock ≠ 0xFFFFFFFF#32) :
    s.Goes (t.offerWrite i tag b d) := by
  have offered := (h (some ⟨t.store.clock + 1#32, t.own⟩)).offer b
    ⟨t.store.clock + 1#32, t.own⟩ d .localWrite phase (by simp)
    (.inr ⟨rfl, State.seq_next_ne_zero clock⟩)
  unfold State.offerWrite
  dsimp only
  split
  · rename_i u accepted
    rw [accepted] at offered
    have judged : t.judge b ⟨t.store.clock + 1#32, t.own⟩ .localWrite = .accept := by
      by_contra other
      rw [State.offer_of_judge_ne_accept d rfl other] at accepted
      exact other (Prod.mk.inj accepted).2
    rw [State.offer_of_judge_accept d judged] at accepted
    obtain ⟨rfl, -⟩ := Prod.mk.inj accepted
    have kept := t.occupants_accept b (offeredVersion ⟨t.store.clock + 1#32, t.own⟩ .localWrite) d
      .localWrite
    rw [State.learn_next _ (by simp) clock]
    refine ⟨_, _, offered, .single ?_⟩
    refine (State.Runs.refl.startProposal b _ d ?_ ?_).record ..
    · exact State.free_of_occupants (s := t) kept free
    · exact (State.tagInUse_of_occupants (s := t) kept tag).trans unused
  · exact ((h none).record ..).goes

theorem ReadEntry.start_running (tag : Byte) (b : Nat) (mode : ReadMode) :
    (ReadEntry.start tag b mode).running = true := rfl

/-- A read that only one station has reported to has one report. -/
theorem ReadEntry.reportCount_of_one {e : ReadEntry} {n : StationNo} {r : Report}
    (h : e.reports = (Vector.replicate 8 none).set n (some r)) : e.reportCount = 1 := by
  have shown : ∀ k, (e.reports.get k).isSome = decide (n = k) := fun k => by
    rw [h, vector_get_set]
    by_cases same : n = k <;> simp [same, Vector.get]
  have one : ∀ n : StationNo, (List.finRange 8).countP (fun k => decide (n = k)) = 1 := by decide
  simp only [ReadEntry.reportCount, shown, one]

/-- With more than one station needed, the own report alone ends no collection (R147). -/
theorem State.enterReport_of_short {s : State} {i : Fin 4} {n : StationNo} {r : Report}
    (h : ({ s.readEntry i with reports := (s.readEntry i).reports.set n (some r) } : ReadEntry
      ).reportCount < s.quorum) :
    s.enterReport i n r =
      s.setRead i { s.readEntry i with reports := (s.readEntry i).reports.set n (some r) } :=
  if_neg (Nat.not_le.mpr h)

theorem State.Runs.beginFresh {s t : State} {claim : Option Version} (h : s.Runs claim t)
    {i : Fin 4} (running : (t.readEntry i).running = true)
    (silent : (t.readEntry i).reports = Vector.replicate 8 none) :
    s.Runs claim (t.beginFresh i) := by
  have sending : s.Runs claim (t.setRead i { t.readEntry i with state := .querySending }) :=
    h.setRead (.of_running rfl rfl running)
  have reported := sending.enterReport (i := i) t.own
    ⟨(t.entryOf (t.readEntry i).block).version, (t.entryOf (t.readEntry i).block).held⟩
    (by simp [State.readEntry_setRead, ReadEntry.running])
  unfold State.beginFresh
  dsimp only
  split
  · rename_i several
    refine reported.sendQuery ?_
    rw [State.enterReport_of_short]
    · simp [State.readEntry_setRead, ReadEntry.running]
    · rw [ReadEntry.reportCount_of_one (n := t.own)]
      · exact several
      · simp only [State.readEntry_setRead, if_true, silent]
        rfl
  · exact reported

end Sys2Proof.Machine
end

section
/-! PROOF. Every command goes by moves: one lemma for each group of commands, and the step. -/

namespace Sys2Proof.Machine

/-! ## Resets, the tick and the port -/

theorem State.tick_runs (s : State) (answered : Nat) {t : State}
    (h : execTick s answered = .next t) : s.Runs none t := by
  obtain rfl := Host.Outcome.next.inj h
  dsimp only
  split
  · have counted := (State.Runs.refl (s := s) (claim := none)).answerSteps answered |>.countTick
    split
    · exact counted.countWindows
    · exact counted
  · exact .refl

theorem State.scan_goes (s : State) (reading : Reading) (lineActive : Bool) {t : State}
    (h : execScan reading s lineActive = .next t) : s.Goes t := by
  obtain rfl := Host.Outcome.next.inj h
  split
  · rename_i port
    split
    · exact s.recordFinding_goes _ _ port
    · exact State.Runs.refl.freePort.goes
  · exact State.Runs.refl.goes

theorem State.marking_goes (s : State) (error lineActive : Bool) {t : State}
    (h : execMarking error s lineActive = .next t) : s.Goes t := by
  obtain rfl := Host.Outcome.next.inj h
  split
  · rename_i port
    split
    · exact s.nextMark_goes _ port
    · exact State.Runs.refl.freePort.goes
  · exact State.Runs.refl.goes

/-! ## The line -/

theorem State.arbitrationLost_goes (s : State) {t : State}
    (h : execArbitrationLost s = .next t) : s.Goes t := by
  obtain rfl := Host.Outcome.next.inj h
  split
  · split
    · exact (s.loseAttempt_runs _ _).goes.settle
    · exact State.Runs.refl.goes
  · exact State.Runs.refl.goes

theorem State.arbitrationWon_goes (s : State) {t : State}
    (h : execArbitrationWon s = .next t) : s.Goes t := by
  obtain rfl := Host.Outcome.next.inj h
  split
  · split
    · exact (s.winAttempt_runs _ _).goes.settle
    · exact State.Runs.refl.goes
  · exact State.Runs.refl.goes

theorem State.readBackMismatch_goes (s : State) {t : State}
    (h : execReadBackMismatch s = .next t) : s.Goes t := by
  obtain rfl := Host.Outcome.next.inj h
  split
  · exact ((s.pastArbitration_runs _).stopFrame _).goes.settle
  · exact State.Runs.refl.goes

theorem State.transmissionCompletion_goes (s : State) {t : State}
    (h : execTransmissionCompletion s = .next t) : s.Goes t := by
  obtain rfl := Host.Outcome.next.inj h
  split
  · rename_i q _ _
    exact (((s.pastArbitration_runs q).leave q.id).completed q.id).goes.settle
  · exact State.Runs.refl.goes

/-- A frame that fails a test of the receiver does what a reception of it does, or nothing. -/
theorem State.tested_runs (s : State) (test : Prop) [Decidable test] (act : State → State)
    (h : s.member.phase ≠ .mounting → s.Runs none (act s)) :
    s.Runs none (if test then s.reception act else s) := by
  split
  · exact s.reception_runs act h
  · exact .refl

theorem State.discarded_runs (s : State) (_ : s.member.phase ≠ .mounting) :
    s.Runs none s.discard := State.Runs.refl.discard

/-- A frame whose attempt field is out of range is discarded unless it bears the own number (R79,
R92). -/
theorem State.attempted_runs (s : State) (n : StationNo) (attempt : Byte) (deliver : State → State)
    (h : ∀ t, s.member.phase ≠ .mounting → s.Runs none t → s.Runs none (deliver t)) :
    s.Runs none (if attemptOk attempt ∨ n = s.own then s.receive n none deliver
      else s.reception State.discard) := by
  split
  · exact s.receive_runs n none deliver h
  · exact s.reception_runs _ s.discarded_runs

theorem State.heartbeatReceived_runs (s : State) (n : StationNo) (p : RunPhase) (clock : BitVec 32)
    (group geometry : Byte) :
    s.Runs none (s.reception fun s => if n = s.own then s.addressConflict
      else (s.judgeHeartbeat n p clock group geometry).settle) := by
  refine s.reception_runs _ fun phase => ?_
  split
  · exact State.Runs.refl.addressConflict phase
  · exact (s.judgeHeartbeat_runs n p clock group geometry phase).settled phase

/-! ## The client port -/

theorem State.submitWrite_goes (s : State) (tag : Byte) (b : BitVec 16) (d : Data) :
    s.Goes (s.closing (State.submitWrite tag b d)) := by
  refine s.closing_goes _ fun went => ?_
  unfold State.submitWrite
  split
  · rename_i i passed free
    obtain ⟨online, unused, -, clock⟩ := State.checkWrite_accepted passed
    have phase : s.member.phase ≠ .mounting := fun mounting => by
      have : s.member.phase = .online := online
      simp [mounting] at this
    exact State.Runs.offerWrite went _ d phase (State.free_of_freeProposal free) unused clock
  · exact ((went none).record ..).goes

theorem State.submitReadLocal_goes (s : State) (tag : Byte) (b : BitVec 16) :
    s.Goes (s.closing (State.submitReadLocal tag b)) := by
  refine s.closing_goes _ fun went => ?_
  unfold State.submitReadLocal
  split
  · rename_i i passed free
    have started := (went none).claimRead i (.start tag b.toNat .localRead)
      (State.free_of_freeRead free) rfl (State.checkRead_accepted passed).2.1
    refine ((started.beginLocal ?_).record ..).goes
    simp [State.readEntry_setRead, ReadEntry.start_running]
  · exact ((went none).record ..).goes

theorem State.submitReadFresh_goes (s : State) (tag : Byte) (b : BitVec 16) :
    s.Goes (s.closing (State.submitReadFresh tag b)) := by
  refine s.closing_goes _ fun went => ?_
  unfold State.submitReadFresh
  split
  · rename_i i passed free
    have started := (went none).claimRead i (.start tag b.toNat .fresh)
      (State.free_of_freeRead free) rfl (State.checkRead_accepted passed).2.1
    refine ((started.beginFresh ?_ ?_).record ..).goes
    · simp [State.readEntry_setRead, ReadEntry.start_running]
    · simp only [State.readEntry_setRead, if_true]
      rfl
  · exact ((went none).record ..).goes

theorem State.submitAbort_goes (s : State) (tag : Byte) :
    s.Goes (s.closing (State.submitAbort tag)) := by
  refine s.closing_goes _ fun went => ?_
  unfold State.submitAbort
  split
  · split
    · exact (((went none).finishProposal ..).record ..).goes
    · exact (((went none).finishRead ..).record ..).goes
    · exact ((went none).record ..).goes
  · exact ((went none).record ..).goes

theorem State.badRequest_goes (s : State) (packet : List Byte) :
    s.Goes (s.closing fun s =>
      if packetWellFormed packet then s else s.record (packetTag packet) .badRequest) := by
  refine s.closing_goes _ fun went => ?_
  split
  · exact (went none).goes
  · exact ((went none).record ..).goes

theorem State.restart_goes (s : State) : s.Goes (s.closing State.beginRestart) := by
  refine s.closing_goes _ fun went => ?_
  have waits : s.Runs none (s.closeShort.onControl fun c => { c with restarting := true }) :=
    (went none).control _
  exact (waits.restate QueuedFrame.cut fun _ => rfl).goes

theorem State.transactionOpen_runs (s : State) {t : State}
    (h : execTransactionOpen s = .next t) : s.Runs none t := by
  obtain rfl := Host.Outcome.next.inj h
  split
  · exact State.Runs.refl.closeShort.setTransaction _ fun _ _ hr => by cases hr
  · refine State.Runs.refl.setTransaction _ fun _ _ hr => ?_
    split at hr <;> cases hr

theorem head_of_event (u : State) : (Response.event u.client.nextEvent).HeadOf u :=
  fun _ hr => by cases hr

theorem head_of_status (u : State) : (Response.statusBlock u.statusBlock).HeadOf u :=
  fun _ hr => by cases hr

/-- The rise of CSn of a TAKE or an EVENTS is a run, if its end at the open transaction is one. -/
theorem State.ending_runs (s : State) (ended : State) (h : s.Runs none ended) :
    s.Runs none (if s.client.transaction.deaf then s.setTransaction .closed
      else if s.awake then ended else s) := by
  split
  · exact State.Runs.refl.setTransaction _ fun _ _ hr => by cases hr
  · split
    · exact h
    · exact .refl

theorem State.eventsEnd_runs (s : State) (clocked : Nat) :
    s.Runs none ((s.beforeEnd fun s => .event s.client.nextEvent).endEvents clocked) :=
  (State.Runs.refl.beforeEnd _ head_of_event).endEvents clocked

theorem State.status_runs (s : State) (rise : Bool) {t : State}
    (h : execStatus s rise = .next t) : s.Runs none t := by
  obtain rfl := Host.Outcome.next.inj h
  split
  · exact State.Runs.refl.closeShort
  · exact State.Runs.refl.commandByte _ head_of_status

/-! ## Every command -/

section
variable {s t u : State}

theorem State.Goes.next (goes : s.Goes u)
    (h : (Host.Outcome.next u : Host.Outcome State Fault Refusal) = .next t) :
    s.Goes t ∨ s.Resets t :=
  .inl (Host.Outcome.next.inj h ▸ goes)

theorem State.Runs.next (runs : s.Runs none u)
    (h : (Host.Outcome.next u : Host.Outcome State Fault Refusal) = .next t) :
    s.Goes t ∨ s.Resets t :=
  runs.goes.next h

/-- A command that a station answers under a test, and ignores else. -/
theorem State.Runs.orStays {test : Prop} [Decidable test] (runs : s.Runs none u) :
    s.Runs none (if test then u else s) := by
  split
  · exact runs
  · exact .refl

theorem State.Resets.next (resets : s.Resets u)
    (h : (Host.Outcome.next u : Host.Outcome State Fault Refusal) = .next t) :
    s.Goes t ∨ s.Resets t :=
  .inr (Host.Outcome.next.inj h ▸ resets)

/-- A reset under a test: the station is reset, or it ignores the command. -/
theorem State.Resets.orStays {test : Prop} [Decidable test] (resets : s.Resets u)
    (h : (Host.Outcome.next (if test then u else s) : Host.Outcome State Fault Refusal) = .next t) :
    s.Goes t ∨ s.Resets t := by
  split at h
  · exact resets.next h
  · exact State.Runs.refl.next h

theorem State.resetRelease_goes (source : ResetSource) (straps : Straps)
    (h : execResetRelease source straps s = .next t) : s.Goes t ∨ s.Resets t := by
  obtain rfl := Host.Outcome.next.inj h
  dsimp only
  split
  · exact .inl State.Runs.refl.goes
  · split
    · exact .inl (State.Runs.refl.control _).goes
    · exact .inr (.released straps)

end

/-- What a command makes of a state comes from it by moves, or is a reset of it. -/
theorem exec_goes (c : Instr) (s t : State) (h : exec c s = .next t) :
    s.Goes t ∨ s.Resets t := by
  cases c with
  | powerOn => exact (State.Resets.held _).next h
  | resetn periods => exact (State.Resets.held _).orStays h
  | resetRelease source straps => exact State.resetRelease_goes source straps h
  | tick answered => exact .inl (s.tick_runs answered h).goes
  | scan reading lineActive => exact .inl (s.scan_goes reading lineActive h)
  | marking error lineActive => exact .inl (s.marking_goes error lineActive h)
  | mediaStepLimitExpiry => exact State.Runs.refl.failPort.orStays.next h
  | portFault => exact State.Runs.refl.failPort.orStays.next h
  | verify error reading => exact (State.Runs.refl.verify error reading).next h
  | writeCompletion => exact s.completeWrite_runs.next h
  | sectorReadCompletion reading => exact (s.completeRead_runs reading).next h
  | scrubReadCompletion reading => exact (s.completeScrub_runs reading).next h
  | transmissionStart => exact State.Runs.refl.endIgnored.startAttempt.orStays.next h
  | arbitrationLost => exact .inl (s.arbitrationLost_goes h)
  | readBackMismatch => exact .inl (s.readBackMismatch_goes h)
  | transmissionCompletion => exact .inl (s.transmissionCompletion_goes h)
  | receptionError bits => exact (s.tested_runs _ _ s.discarded_runs).next h
  | frameDiscarded frame => exact (s.tested_runs _ _ s.discarded_runs).next h
  | addressConflict frame =>
    exact (s.tested_runs _ _ fun phase => State.Runs.refl.addressConflict phase).next h
  | heartbeatReceived n p clock group geometry spares staging =>
    exact (s.heartbeatReceived_runs n p clock group geometry).next h
  | updateReceived n b v attempt wanted relay d =>
    exact (s.attempted_runs n attempt _ fun _ phase hu =>
      hu.deliverUpdate phase b v wanted relay d).next h
  | ackReceived n target b v outcome =>
    exact (s.receive_runs n _ _ fun _ _ hu => hu.deliverAck n b v outcome).next h
  | queryReceived n b attempt wanted =>
    exact (s.attempted_runs n attempt _ fun _ _ hu => hu.deliverQuery n b wanted).next h
  | reportReceived n target b v held =>
    exact (s.receive_runs n _ _ fun _ _ hu => hu.deliverReport n b v held).next h
  | fetchReceived n target b =>
    exact (s.receive_runs n _ _ fun _ _ hu => hu.deliverFetch n b).next h
  | repairReceived n target b v d =>
    exact (s.receive_runs n _ _ fun _ phase hu =>
      hu.deliverRepair phase n b v d).next h
  | notHeldReceived n target b =>
    exact (s.receive_runs n _ _ fun _ _ hu => hu.deliverNotHeld n b).next h
  | digestReceived n target range versions =>
    exact (s.receive_runs n _ _ fun _ _ hu =>
      hu.deliverDigest n range versions).next h
  | rangeDoneReceived n target range sent want =>
    exact (s.receive_runs n _ _ fun _ _ hu =>
      hu.deliverRangeDone n range sent want).next h
  | pushReceived n target b v d =>
    exact (s.receive_runs n _ _ fun _ phase hu =>
      hu.deliverPush phase n b v d).next h
  | busyReceived n target request =>
    exact (s.receive_runs n _ _ fun _ _ hu => hu.deliverBusy n request).next h
  | notServingReceived n target range =>
    exact (s.receive_runs n _ _ fun _ _ hu =>
      hu.deliverNotServing n range).next h
  | heartbeatTimerExpiry => exact (s.expire_runs _ _ fun _ _ => State.Runs.refl.heartbeat).next h
  | listenWindowExpiry =>
    exact (s.expire_runs _ _ fun phase _ => State.Runs.refl.listenExpired phase).next h
  | silenceWindowExpiry n =>
    exact (s.expire_runs _ _ fun phase _ => State.Runs.refl.fallSilent n phase).next h
  | submitWrite tag b d => exact (s.submitWrite_goes tag b d).next h
  | ackWindowExpiry i =>
    obtain rfl := Host.Outcome.next.inj h
    refine .inl (s.expire_runs _ _ fun _ due => State.Runs.refl.ackExpired ?_).goes
    simp only [Bool.and_eq_true, decide_eq_true_eq] at due
    exact due.2
  | submitAbort tag => exact (s.submitAbort_goes tag).next h
  | submitReadLocal tag b => exact (s.submitReadLocal_goes tag b).next h
  | submitReadFresh tag b => exact (s.submitReadFresh_goes tag b).next h
  | queryWindowExpiry i =>
    obtain rfl := Host.Outcome.next.inj h
    refine .inl (s.expire_runs _ _ fun _ due => State.Runs.refl.queryExpired ?_).goes
    simp only [Bool.and_eq_true, decide_eq_true_eq] at due
    simp [ReadEntry.running, due]
  | fetchWindowExpiry i =>
    obtain rfl := Host.Outcome.next.inj h
    refine .inl (s.expire_runs _ _ fun _ due => State.Runs.refl.giveUpTarget ?_).goes
    simp only [Bool.and_eq_true, decide_eq_true_eq] at due
    simp [ReadEntry.running, due]
  | readBackOffExpiry i =>
    exact (s.expire_runs _ _ fun _ _ => State.Runs.refl.readBackOffEnded i).next h
  | fetchSlotWindowExpiry => exact (s.expire_runs _ _ fun _ _ => State.Runs.refl.giveUpFetch).next h
  | fetchSlotBackOffExpiry =>
    exact (s.expire_runs _ _ fun _ _ => State.Runs.refl.slotBackOffEnded).next h
  | rangeWindowExpiry => exact (s.expire_runs _ _ fun _ _ => State.Runs.refl.failAttempt).next h
  | pushDeadlineExpiry =>
    exact (s.expire_runs _ _ fun _ _ => State.Runs.refl.pushDeadlinePassed).next h
  | digestBackoffExpiry =>
    exact (s.expire_runs _ _ fun _ _ => (State.Runs.refl.onCursor _).startDigest).next h
  | restExpiry =>
    exact (s.expire_runs _ _ fun _ _ => (State.Runs.refl.onCursor _).chooseServer).next h
  | transactionOpen => exact .inl (s.transactionOpen_runs h).goes
  | badRequest packet => exact (s.badRequest_goes packet).next h
  | take => exact (State.Runs.refl.commandByte _ head_of_take).next h
  | takeEnd clocked => exact (s.ending_runs _ (s.endTake_runs clocked)).next h
  | events => exact (State.Runs.refl.commandByte _ head_of_event).next h
  | eventsEnd clocked => exact (s.ending_runs _ (s.eventsEnd_runs clocked)).next h
  | status rise => exact .inl (s.status_runs rise h).goes
  | unknownCommand bytes => exact (s.closing_goes id fun went => (went none).goes).next h
  | restart => exact s.restart_goes.next h
  | restartTakesEffect straps => exact (State.Resets.released straps).orStays h
  | arbitrationWon => exact .inl (s.arbitrationWon_goes h)

/-- A step goes by moves, from the state whose front command was taken off the queue. -/
theorem step_goes {s t : State} (h : step s = .next t) :
    s = t ∨ ∃ rest, (s.withPending rest).Goes t ∨ (s.withPending rest).Resets t := by
  unfold step at h
  split at h
  · exact .inl (Host.Outcome.next.inj h)
  · exact .inr ⟨_, exec_goes _ _ _ h⟩

end Sys2Proof.Machine
end

section
/-! PROOF. The soundness of the block map is kept by every step (R7, R21, R49, R56, R61): the moves
that touch neither the map nor the lists, then an acceptance, a block that becomes LOST, the end of a
write, the start of one, and the resolution of mount. -/

namespace Sys2Proof.Machine

/-! ## What a step keeps is what its moves and the resets keep -/

/-- A property that every run of moves and every reset keeps is kept by every step. -/
theorem step_keeps {P : State → Prop}
    (runs : ∀ s u claim, P s → s.Runs claim u → P (u.learnClaim claim))
    (resets : ∀ s t, P s → s.Resets t → P t)
    (pending : ∀ s rest, P s → P (s.withPending rest)) {s t : State} (hs : P s)
    (h : step s = .next t) : P t := by
  rcases step_goes h with rfl | ⟨rest, went | reset⟩
  · exact hs
  · clear h
    obtain ⟨claim, u, first, later⟩ := went
    have start := runs _ _ _ (pending s rest hs) first
    clear first
    induction later with
    | refl => exact start
    | tail _ next ih => exact runs _ _ none ih next
  · exact resets _ _ (pending s rest hs) reset

/-! ## The moves that leave the map, the staging queue, the port and the lists -/

/-- What the soundness of the map is about. -/
def State.mapView (s : State) : List (Nat × MapEntry) × List StagingEntry × Option MediaOp × Phase ×
    List Nat × List Nat :=
  (s.store.map, s.store.staging, s.media.port, s.member.phase, s.repair.list, s.media.scrub)

theorem State.MapSound.of_subset {s t : State} (h : s.MapSound) (map : t.store.map = s.store.map)
    (staging : t.store.staging = s.store.staging)
    (port : ∀ op, t.media.port = some op → (∀ w, op ≠ .write w) ∧ op.ofMount = false ∨
      s.media.port = some op ∧ (op.ofMount = true → t.member.phase = s.member.phase))
    (list : t.repair.list ⊆ s.repair.list) (scrub : t.media.scrub ⊆ s.media.scrub) :
    t.MapSound := by
  have entry : ∀ b, t.entryOf b = s.entryOf b := fun b => by simp only [State.entryOf, map]
  have newest : ∀ b, t.newestStaging b = s.newestStaging b := fun b => by
    simp only [State.newestStaging, staging]
  refine ⟨fun b => ?_, fun b => ?_, fun b => ?_, fun b => ?_, fun e he => ?_, fun e he => ?_, ?_,
    fun op hp => ?_, fun op hp hm => ?_, fun n hp => ?_, fun b hb => ?_, fun b hb => ?_⟩
  · simpa only [entry] using h.clean b
  · simpa only [entry] using h.lost b
  · simpa only [entry] using h.unwritten b
  · simpa only [entry, newest] using h.staged b
  · simpa only [entry] using h.held e (staging ▸ he)
  · exact h.tail e (staging ▸ he)
  · exact staging ▸ h.single
  · rcases port _ hp with ⟨other, -⟩ | ⟨same, -⟩
    · exact absurd rfl (other op)
    · exact staging ▸ h.port op same
  · rcases port _ hp with ⟨-, other⟩ | ⟨same, phase⟩
    · simp [hm] at other
    · rw [phase hm, staging]
      exact h.mount op same hm
  · rcases port _ hp with ⟨-, other⟩ | ⟨same, -⟩
    · cases other
    · obtain ⟨empty, unlisted, unscrubbed⟩ := h.fresh n same
      rw [map]
      exact ⟨empty, List.subset_nil.mp (unlisted ▸ list), List.subset_nil.mp (unscrubbed ▸ scrub)⟩
  · simpa only [entry] using h.listed b (list hb)
  · simpa only [entry] using h.scrubbed b (scrub hb)

/-- The map of u is sound, and where the run began out of MOUNTING nothing of mount is at the
port. -/
structure State.Sound (s u : State) : Prop where
  map  : u.MapSound
  away : s.member.phase ≠ .mounting → ∀ op, u.media.port = some op → op.ofMount = false

section
variable {s t u : State}

theorem State.Sound.refl (h : s.MapSound) : s.Sound s where
  map := h
  away := fun phase op hp => by
    by_contra mount
    exact phase (h.mount op hp (by simpa using mount)).1

theorem State.Sound.of_subset (h : s.Sound t) (map : u.store.map = t.store.map)
    (staging : u.store.staging = t.store.staging)
    (port : ∀ op, u.media.port = some op → (∀ w, op ≠ .write w) ∧ op.ofMount = false ∨
      t.media.port = some op ∧ (op.ofMount = true → u.member.phase = t.member.phase))
    (list : u.repair.list ⊆ t.repair.list) (scrub : u.media.scrub ⊆ t.media.scrub) :
    s.Sound u where
  map := h.map.of_subset map staging port list scrub
  away := fun phase op hp => by
    rcases port op hp with ⟨-, other⟩ | ⟨same, -⟩
    · exact other
    · exact h.away phase op same

theorem State.Sound.of_view (h : s.Sound t) (same : u.mapView = t.mapView) : s.Sound u := by
  simp only [State.mapView, Prod.mk.injEq] at same
  obtain ⟨map, staging, port, phase, list, scrub⟩ := same
  exact h.of_subset map staging (fun op hp => .inr ⟨port ▸ hp, fun _ => phase⟩)
    (fun _ hb => list ▸ hb) (fun _ hb => scrub ▸ hb)

/-- The port is freed, or is left free. -/
theorem State.Sound.of_free (h : s.Sound t) (map : u.store.map = t.store.map)
    (staging : u.store.staging = t.store.staging) (free : u.media.port = none)
    (list : u.repair.list ⊆ t.repair.list) (scrub : u.media.scrub ⊆ t.media.scrub) :
    s.Sound u :=
  h.of_subset map staging (fun op hp => by simp [free] at hp) list scrub

end

/-! ## A new entry of one block -/

/-- What its condition fixes of a map entry (R7). -/
structure MapEntry.Sound (e : MapEntry) : Prop where
  clean     : e.condition = .clean → e.mediaVersion = e.version ∧ e.sector.isSome = true
  lost      : e.condition = .lost → e.mediaVersion = .nil
  unwritten : e.condition = .unwritten → e = .unwritten

/-- The map stays sound where one block's entry becomes e, and the queue, the port and the lists hold
for it what its condition asks. -/
theorem State.MapSound.update {s t : State} (h : s.MapSound) {b : Nat} {e : MapEntry}
    (entry : ∀ k, t.entryOf k = if b = k then e else s.entryOf k) (sound : e.Sound)
    (newest : e.condition = .staged → (t.newestStaging b).map (·.version) = some e.version)
    (others : ∀ k, k ≠ b →
      (t.newestStaging k).map (·.version) = (s.newestStaging k).map (·.version))
    (held : ∀ x, x ∈ t.store.staging → (x.block = b ∧ e.condition = .staged) ∨
      (x.block ≠ b ∧ ∃ y, y ∈ s.store.staging ∧ y.block = x.block))
    (tail : ∀ x, x ∈ t.store.staging.drop 1 → x.state = .waiting)
    (single : (waitingBlocks t.store.staging).Nodup)
    (port : ∀ op, t.media.port = some (.write op) →
      ∃ x rest, t.store.staging = x :: rest ∧ x.state = .writing ∧ x.block = op.block
        ∧ x.version = op.version)
    (away : ∀ op, t.media.port = some op → op.ofMount = false)
    (listed : ∀ k, k ∈ t.repair.list → (k = b ∧ e.condition = .lost) ∨ (k ≠ b ∧ k ∈ s.repair.list))
    (scrubbed : ∀ k, k ∈ t.media.scrub → k ≠ b ∧ k ∈ s.media.scrub) : t.MapSound := by
  have here : t.entryOf b = e := by simp [entry]
  have there : ∀ k, k ≠ b → t.entryOf k = s.entryOf k := fun k hk => by simp [entry, hk.symm]
  refine ⟨fun k => ?_, fun k => ?_, fun k => ?_, fun k => ?_, fun x hx => ?_, tail, single, port,
    fun op hp hm => ?_, fun n hp => ?_, fun k hk => ?_, fun k hk => ?_⟩
  · by_cases same : k = b
    · subst same
      exact here ▸ sound.clean
    · exact there k same ▸ h.clean k
  · by_cases same : k = b
    · subst same
      exact here ▸ sound.lost
    · exact there k same ▸ h.lost k
  · by_cases same : k = b
    · subst same
      exact here ▸ sound.unwritten
    · exact there k same ▸ h.unwritten k
  · by_cases same : k = b
    · subst same
      exact here ▸ newest
    · rw [there k same, others k same]
      exact h.staged k
  · rcases held x hx with ⟨same, staged⟩ | ⟨other, y, hy, same⟩
    · rw [same, here, staged]
    · rw [there _ other, ← same]
      exact h.held y hy
  · simp [away op hp] at hm
  · cases away _ hp
  · rcases listed k hk with ⟨same, lost⟩ | ⟨other, hk⟩
    · rw [same, here, lost]
    · rw [there k other]
      exact h.listed k hk
  · obtain ⟨other, hk⟩ := scrubbed k hk
    rw [there k other]
    exact h.scrubbed k hk

/-! ## The staging queue under an acceptance -/

section
variable {b : Nat} {v : Version} {d : Data} {source : Source}

theorem mem_stage {x : StagingEntry} {l : List StagingEntry} (h : x ∈ stage b v d source l) :
    x = ⟨b, v, d, source, .waiting⟩ ∨ x ∈ l := by
  induction l with
  | nil => exact .inl (List.mem_singleton.mp h)
  | cons e rest ih =>
    unfold stage at h
    split at h
    · rcases List.mem_cons.mp h with same | hx
      · exact .inl same
      · exact .inr (List.mem_cons_of_mem e hx)
    · rcases List.mem_cons.mp h with same | hx
      · exact .inr (same ▸ List.mem_cons_self)
      · exact (ih hx).imp_right (List.mem_cons_of_mem e)

/-- The entries for another block are as they were. -/
theorem filter_stage_of_ne {k : Nat} (h : k ≠ b) (l : List StagingEntry) :
    (stage b v d source l).filter (fun e => e.block = k) = l.filter fun e => e.block = k := by
  induction l with
  | nil => simp [stage, h.symm]
  | cons e rest ih =>
    unfold stage
    split
    · rename_i here
      simp [here.1, h.symm]
    · simp only [List.filter_cons, ih]

theorem mem_waitingBlocks {k : Nat} {l : List StagingEntry} :
    k ∈ waitingBlocks l ↔ ∃ e, e ∈ l ∧ e.state = .waiting ∧ e.block = k := by
  simp [waitingBlocks, and_assoc]

theorem waitingBlocks_cons (e : StagingEntry) (l : List StagingEntry) :
    waitingBlocks (e :: l) =
      if e.state = .waiting then e.block :: waitingBlocks l else waitingBlocks l := by
  unfold waitingBlocks
  rw [List.filter_cons]
  by_cases h : e.state = .waiting <;> simp [h]

/-- The block waits once after an acceptance: in its place, or last (R11). -/
theorem waitingBlocks_stage (l : List StagingEntry) :
    waitingBlocks (stage b v d source l) =
      if b ∈ waitingBlocks l then waitingBlocks l else waitingBlocks l ++ [b] := by
  induction l with
  | nil => rfl
  | cons e rest ih =>
    unfold stage
    split
    · rename_i here
      simp [waitingBlocks_cons, here]
    · rename_i other
      rw [waitingBlocks_cons, waitingBlocks_cons, ih]
      by_cases waits : e.state = .waiting
      · have ne : ¬ b = e.block := fun same => other ⟨same.symm, waits⟩
        by_cases hb : b ∈ waitingBlocks rest <;> simp [waits, hb, ne]
      · simp [waits]

/-- The version taken is the newest for its block: behind it in the queue is none of the block. -/
theorem newest_stage {l : List StagingEntry} (tail : ∀ e, e ∈ l.drop 1 → e.state = .waiting)
    (single : (waitingBlocks l).Nodup) :
    ((stage b v d source l).filter fun e => e.block = b).getLast? =
      some ⟨b, v, d, source, .waiting⟩ := by
  induction l with
  | nil => simp [stage]
  | cons e rest ih =>
    have waits : ∀ x, x ∈ rest → x.state = .waiting := tail
    rw [waitingBlocks_cons] at single
    unfold stage
    split
    · rename_i here
      rw [if_pos here.2, List.nodup_cons, here.1] at single
      have none_behind : (rest.filter fun x => x.block = b) = [] :=
        List.filter_eq_nil_iff.mpr fun x hx hb =>
          single.1 (mem_waitingBlocks.mpr ⟨x, hx, waits x hx, by simpa using hb⟩)
      simp [none_behind]
    · have single' : (waitingBlocks rest).Nodup := by
        split at single
        · exact (List.nodup_cons.mp single).2
        · exact single
      have last := ih (fun x hx => waits x (List.mem_of_mem_drop hx)) single'
      rw [List.filter_cons]
      split
      · rw [List.getLast?_cons, last]
        rfl
      · exact last

theorem tail_stage {l : List StagingEntry} (tail : ∀ e, e ∈ l.drop 1 → e.state = .waiting) :
    ∀ e, e ∈ (stage b v d source l).drop 1 → e.state = .waiting := by
  cases l with
  | nil => simp [stage]
  | cons e rest =>
    unfold stage
    split
    · exact tail
    · intro x hx
      rcases mem_stage hx with rfl | hx
      · rfl
      · exact tail x hx

/-- A WRITING head stays the head. -/
theorem stage_of_writing {e : StagingEntry} {rest : List StagingEntry} (h : e.state = .writing) :
    stage b v d source (e :: rest) = e :: stage b v d source rest := by
  simp [stage, h]

end

/-- An acceptance keeps the map sound (R13, R14). -/
theorem State.MapSound.intake {s : State} (h : s.MapSound) (b : Nat) (v : Version) (d : Data)
    (source : Source) (away : ∀ op, s.media.port = some op → op.ofMount = false) :
    (s.intake b v d source).MapSound := by
  have staging : (s.intake b v d source).store.staging = stage b v d source s.store.staging := by
    simp [State.intake]
  have port : (s.intake b v d source).media.port = s.media.port := by
    simp [State.intake, State.unlistScrub]
  refine h.update (b := b) (e := { s.entryOf b with version := v, condition := .staged })
    (fun k => ?_) ⟨fun hc => (by cases hc), fun hc => (by cases hc), fun hc => (by cases hc)⟩
    (fun _ => ?_) (fun k hk => ?_) (fun x hx => ?_) ?_ ?_ (fun op hp => ?_)
    (fun op hp => away op (port ▸ hp)) (fun k hk => ?_) (fun k hk => ?_)
  · exact s.entryOf_take b k v d source
  · rw [State.newestStaging, staging, newest_stage h.tail h.single]
    rfl
  · rw [State.newestStaging, staging, filter_stage_of_ne hk]
    rfl
  · by_cases same : x.block = b
    · exact .inl ⟨same, rfl⟩
    · rcases mem_stage (staging ▸ hx) with rfl | hx
      · exact absurd rfl same
      · exact .inr ⟨same, x, hx, rfl⟩
  · exact staging ▸ tail_stage h.tail
  · rw [staging, waitingBlocks_stage]
    split
    · exact h.single
    · rename_i waits
      exact h.single.append (List.nodup_singleton b) (by simpa using waits)
  · obtain ⟨e, rest, queue, writing, block, version⟩ := h.port op (port ▸ hp)
    rw [staging, queue, stage_of_writing writing]
    exact ⟨e, _, rfl, writing, block, version⟩
  · have listed : k ∈ s.repair.list.filter (· ≠ b) := by
      simpa [State.intake, State.unlistRepair] using hk
    simp only [List.mem_filter, decide_eq_true_eq] at listed
    exact .inr ⟨listed.2, listed.1⟩
  · have listed : k ∈ s.media.scrub.filter (· ≠ b) := by
      simpa [State.intake, State.unlistScrub, State.take, State.setEntry] using hk
    simp only [List.mem_filter, decide_eq_true_eq] at listed
    exact ⟨listed.2, listed.1⟩

/-! ## A block that becomes LOST -/

theorem MapEntry.sound_lost (sector : Option Nat) (v : Version) :
    MapEntry.Sound ⟨sector, .nil, v, .lost⟩ :=
  ⟨fun h => (by cases h), fun _ => rfl, fun h => (by cases h)⟩

@[simp] theorem State.entryOf_raise (s : State) (k : EventKind) (n : Subject) (d : Detail)
    (b : Nat) : (s.raise k n d).entryOf b = s.entryOf b := rfl

@[simp] theorem State.entryOf_onMedia (s : State) (f : MediaController → MediaController)
    (b : Nat) : (s.onMedia f).entryOf b = s.entryOf b := rfl

@[simp] theorem State.entryOf_onRepair (s : State) (f : RepairEngine → RepairEngine)
    (b : Nat) : (s.onRepair f).entryOf b = s.entryOf b := rfl

/-- The block's entry becomes LOST, and no other changes (R39, R55). -/
theorem State.entryOf_loseBlock (s : State) (b : Nat) (sector : Option Nat) (how : LostBy)
    (k : Nat) : (s.loseBlock b sector how).entryOf k =
      if b = k then ⟨sector, .nil, (s.entryOf b).version, .lost⟩ else s.entryOf k := by
  have listed : (⟨sector, .nil, (s.entryOf b).version, .lost⟩ : MapEntry) ≠ .unwritten :=
    fun h => by cases congrArg MapEntry.condition h
  exact s.entryOf_setEntry b k _ (.inl listed)

theorem State.scrub_loseBlock (s : State) (b : Nat) (sector : Option Nat) (how : LostBy) :
    (s.loseBlock b sector how).media.scrub = s.media.scrub.filter (· ≠ b) := by
  simp [State.loseBlock, State.setEntry]

/-- A LOST block on the repair list keeps the map sound (R56). -/
theorem State.MapSound.handToRepair {s : State} (h : s.MapSound) {b : Nat}
    (lost : (s.entryOf b).condition = .lost)
    (away : ∀ op, s.media.port = some op → op.ofMount = false) : (s.handToRepair b).MapSound := by
  unfold State.handToRepair
  split
  · exact { h with
      fresh := fun n hp => by cases away _ hp
      listed := fun k hk => by
        rcases List.mem_append.mp hk with hk | hk
        · exact h.listed k hk
        · exact List.mem_singleton.mp hk ▸ lost }
  · exact { h with }

/-- An UNREADABLE read of a CLEAN block keeps the map sound (R55). -/
theorem State.MapSound.lostByRead {s : State} (h : s.MapSound) {b : Nat}
    (away : ∀ op, s.media.port = some op → op.ofMount = false)
    (clean : (s.entryOf b).condition = .clean) : (s.lostByRead b).MapSound := by
  have entry := s.entryOf_loseBlock b (s.entryOf b).sector .read
  have kept : (s.loseBlock b (s.entryOf b).sector .read).store.staging = s.store.staging ∧
      (s.loseBlock b (s.entryOf b).sector .read).media.port = s.media.port ∧
      (s.loseBlock b (s.entryOf b).sector .read).repair = s.repair := by simp
  obtain ⟨staging, port, repair⟩ := kept
  have lost : (s.loseBlock b (s.entryOf b).sector .read).MapSound := by
    refine h.update entry (MapEntry.sound_lost _ _) (fun staged => (by cases staged))
      (fun k _ => by simp only [State.newestStaging, staging]) (fun x hx => ?_) (staging ▸ h.tail)
      (staging ▸ h.single) (fun op hp => staging ▸ h.port op (port ▸ hp))
      (fun op hp => away op (port ▸ hp)) (fun k hk => ?_) (fun k hk => ?_)
    · exact .inr ⟨h.not_staged_of_clean clean x (staging ▸ hx), x, staging ▸ hx, rfl⟩
    · by_cases same : k = b
      · exact .inl ⟨same, rfl⟩
      · exact .inr ⟨same, repair ▸ hk⟩
    · rw [State.scrub_loseBlock, List.mem_filter, decide_eq_true_eq] at hk
      exact ⟨hk.2, hk.1⟩
  exact lost.handToRepair (by simp [entry]) fun op hp => away op (port ▸ hp)

/-! ## The end of a write -/

/-- The write of the staging head, as it is at the port (R23). -/
structure State.Writes (s : State) (op : WriteOp) (e : StagingEntry) (rest : List StagingEntry) :
    Prop where
  queue   : s.store.staging = e :: rest
  writing : e.state = .writing
  block   : e.block = op.block
  version : e.version = op.version

section
variable {s t : State} {op : WriteOp} {e : StagingEntry} {rest : List StagingEntry}

theorem State.MapSound.staged_of_writes (h : s.MapSound) (w : s.Writes op e rest) :
    (s.entryOf op.block).condition = .staged := by
  have staged := h.held e (w.queue ▸ List.mem_cons_self)
  rwa [w.block] at staged

/-- A version behind the head is the newest of its block; with none behind it, the head's is. -/
theorem State.MapSound.newest_of_writes (h : s.MapSound) (w : s.Writes op e rest) :
    some (s.entryOf op.block).version =
      (((rest.filter fun x => x.block = op.block).getLast?).getD e).version := by
  have newest := h.staged op.block (h.staged_of_writes w)
  rw [State.newestStaging, w.queue, List.filter_cons, if_pos (by simp [w.block]),
    List.getLast?_cons] at newest
  exact newest.symm

/-- The head leaves the queue with its write at an end, and its block's entry is x. -/
theorem State.MapSound.endWrite (h : s.MapSound) (w : s.Writes op e rest) {x : MapEntry}
    (entry : ∀ k, t.entryOf k = if op.block = k then x else s.entryOf k) (sound : x.Sound)
    (staged : x.condition = .staged ↔ ∃ y, y ∈ rest ∧ y.block = op.block)
    (version : x.version = (s.entryOf op.block).version) (staging : t.store.staging = rest)
    (port : t.media.port = none)
    (listed : ∀ k, k ∈ t.repair.list → k ∈ s.repair.list ∨ k = op.block ∧ x.condition = .lost)
    (scrub : t.media.scrub ⊆ s.media.scrub) : t.MapSound := by
  have here := h.staged_of_writes w
  have waits : ∀ y, y ∈ rest → y.state = .waiting := fun y hy =>
    h.tail y (by rw [w.queue]; exact hy)
  refine h.update entry sound (fun hc => ?_) (fun k hk => ?_) (fun y hy => ?_) (fun y hy => ?_) ?_
    (fun _ hp => by simp [port] at hp) (fun _ hp => by simp [port] at hp) (fun k hk => ?_)
    (fun k hk => ?_)
  · obtain ⟨y, hy, block⟩ := staged.mp hc
    have newest := h.newest_of_writes w
    rw [State.newestStaging, staging, version]
    cases last : (rest.filter fun x => x.block = op.block).getLast? with
    | none =>
      have gone := List.getLast?_eq_none_iff.mp last
      exact absurd block (by simpa using List.filter_eq_nil_iff.mp gone y hy)
    | some z =>
      rw [last] at newest
      exact newest.symm
  · have other : ¬ e.block = k := fun same => hk (same.symm.trans w.block)
    simp only [State.newestStaging, staging, w.queue, List.filter_cons, decide_eq_true_eq, other,
      if_false]
  · have hy' : y ∈ rest := staging ▸ hy
    by_cases same : y.block = op.block
    · exact .inl ⟨same, staged.mpr ⟨y, hy', same⟩⟩
    · exact .inr ⟨same, y, by rw [w.queue]; exact List.mem_cons_of_mem e hy', rfl⟩
  · exact waits y (List.mem_of_mem_drop (staging ▸ hy))
  · have single := h.single
    rw [w.queue, waitingBlocks_cons] at single
    simpa [staging, w.writing] using single
  · rcases listed k hk with hk | ⟨same, lost⟩
    · refine .inr ⟨fun same => ?_, hk⟩
      have lost := h.listed k hk
      simp [same, here] at lost
    · exact .inl ⟨same, lost⟩
  · refine ⟨fun same => ?_, scrub hk⟩
    have clean := h.scrubbed k (scrub hk)
    simp [same, here] at clean

theorem any_block_iff (rest : List StagingEntry) (b : Nat) :
    (rest.any fun x => decide (x.block = b)) = true ↔ ∃ y, y ∈ rest ∧ y.block = b := by
  simp

theorem MapEntry.ne_unwritten {x : MapEntry} (h : x.condition ≠ .unwritten) : x ≠ .unwritten :=
  fun same => h (congrArg MapEntry.condition same)

/-- A write that ended WRITTEN keeps the map sound (R38). -/
theorem State.MapSound.written (h : s.MapSound) (w : s.Writes op e rest) (n : Nat) {another : Bool}
    (behind : another = true ↔ ∃ y, y ∈ rest ∧ y.block = op.block) :
    ((s.freePort.onStore fun st => { st with staging := rest }).written op n another).MapSound := by
  have here := h.staged_of_writes w
  cases another with
  | true =>
    refine h.endWrite w (x := { s.entryOf op.block with
      sector := some n, mediaVersion := op.version }) (fun k => ?_) ?_ ?_ rfl rfl rfl
      (fun k hk => .inl hk) (fun _ hk => hk)
    · refine State.entryOf_setEntry _ op.block k _ (.inl (MapEntry.ne_unwritten fun un => ?_))
      cases here.symm.trans un
    · exact ⟨by simp [here], by simp [here], by simp [here]⟩
    · exact iff_of_true here (behind.mp rfl)
  | false =>
    have alone : ¬ ∃ y, y ∈ rest ∧ y.block = op.block := fun any => by cases behind.mpr any
    have none_behind : (rest.filter fun x => x.block = op.block) = [] :=
      List.filter_eq_nil_iff.mpr fun y hy block => alone ⟨y, hy, by simpa using block⟩
    have newest := h.newest_of_writes w
    rw [none_behind] at newest
    have version : (s.entryOf op.block).version = op.version :=
      (Option.some.inj newest).trans w.version
    refine h.endWrite w (x := { s.entryOf op.block with
      sector := some n, mediaVersion := op.version, condition := .clean }) (fun k => ?_) ?_ ?_
      rfl rfl rfl (fun k hk => .inl hk) (fun _ hk => hk)
    · exact State.entryOf_setEntry _ op.block k _ (.inl (MapEntry.ne_unwritten (by simp)))
    · exact ⟨fun _ => ⟨version.symm, rfl⟩, by simp, by simp⟩
    · exact iff_of_false (by simp) alone

/-- A write that ended FAILED keeps the map sound (R39). -/
theorem State.MapSound.writeFailed (h : s.MapSound) (w : s.Writes op e rest) (final : Option Nat)
    (source : Source) {another : Bool}
    (behind : another = true ↔ ∃ y, y ∈ rest ∧ y.block = op.block) :
    ((s.freePort.onStore fun st => { st with staging := rest }).writeFailed op final another source
      ).MapSound := by
  have here := h.staged_of_writes w
  cases another with
  | true =>
    refine h.endWrite w (x := { s.entryOf op.block with
      sector := if final.isSome then final else (s.entryOf op.block).sector
      mediaVersion := .nil }) (fun k => ?_) ?_ ?_ rfl rfl rfl
      (fun k hk => .inl hk) (fun _ hk => hk)
    · refine State.entryOf_setEntry _ op.block k _ (.inl (MapEntry.ne_unwritten fun un => ?_))
      cases here.symm.trans un
    · exact ⟨by simp [here], by simp [here], by simp [here]⟩
    · exact iff_of_true here (behind.mp rfl)
  | false =>
    have alone : ¬ ∃ y, y ∈ rest ∧ y.block = op.block := fun any => by cases behind.mpr any
    have lost : (((s.freePort.onStore fun st => { st with staging := rest }).loseBlock op.block
        (if final.isSome then final else (s.entryOf op.block).sector) .write)).MapSound := by
      refine h.endWrite w (fun k => State.entryOf_loseBlock _ op.block _ _ k)
        (MapEntry.sound_lost _ _) (iff_of_false (by simp) alone) rfl (by simp)
        (by simp [State.freePort]) (fun k hk => .inl (by simpa using hk)) ?_
      rw [State.scrub_loseBlock]
      exact List.filter_subset_self _
    have entry := State.entryOf_loseBlock (s.freePort.onStore fun st => { st with staging := rest })
      op.block (if final.isSome then final else (s.entryOf op.block).sector) .write op.block
    unfold State.writeFailed
    dsimp only
    rw [if_neg (by simp)]
    split
    · exact lost
    · refine lost.handToRepair ?_ fun op hp => ?_
      · rw [entry, if_pos rfl]
      · simp [State.freePort] at hp

end

/-- The completion of the write at the port keeps the map sound (R25, R38, R39). -/
theorem State.MapSound.applyWrite {s : State} (h : s.MapSound) {op : WriteOp} (written : Bool)
    (final : Option Nat) (port : s.media.port = some (.write op)) :
    (s.freePort.applyWrite op written final).MapSound := by
  obtain ⟨e, rest, queue, writing, block, version⟩ := h.port op port
  have w : s.Writes op e rest := ⟨queue, writing, block, version⟩
  unfold State.applyWrite
  rw [show s.freePort.store.staging = e :: rest from queue]
  dsimp only
  split
  · exact h.written w _ (any_block_iff _ _)
  · exact h.writeFailed w _ _ (any_block_iff _ _)

/-! ## The start of a write -/

/-- New steps leave the arbiter, the pool and the lists as they were. -/
@[simp] theorem MediaController.run_keeps (m : MediaController) (steps : List MediaStep) :
    (m.run steps).port = m.port ∧ (m.run steps).clientRequests = m.clientRequests ∧
    (m.run steps).engineRequests = m.engineRequests ∧ (m.run steps).passedOver = m.passedOver ∧
    (m.run steps).spares = m.spares ∧ (m.run steps).retired = m.retired ∧
    (m.run steps).sparesExhausted = m.sparesExhausted ∧ (m.run steps).scrub = m.scrub := by
  cases steps <;> simp [MediaController.run]

theorem State.usePort_port (s : State) (op : MediaOp) (steps : List MediaStep) :
    (s.usePort op steps).media.port = some op := by
  simp [State.usePort_media]

/-- The staging head, as its write is taken, keeps the map sound (R23). -/
theorem State.MapSound.startHead {s : State} (h : s.MapSound) {e : StagingEntry}
    {rest : List StagingEntry} {op : WriteOp} (steps : List MediaStep)
    (queue : s.store.staging = e :: rest) (block : op.block = e.block)
    (version : op.version = e.version) :
    ((s.startHead e rest).usePort (.write op) steps).MapSound := by
  have staging : ((s.startHead e rest).usePort (.write op) steps).store.staging =
      { e with state := .writing } :: rest := by simp [State.startHead]
  have kept : ((s.startHead e rest).usePort (.write op) steps).store.map = s.store.map ∧
      ((s.startHead e rest).usePort (.write op) steps).repair = s.repair := by simp
  have scrub : ((s.startHead e rest).usePort (.write op) steps).media.scrub = s.media.scrub := by
    simp [State.usePort_media, State.startHead]
  have port := (s.startHead e rest).usePort_port (.write op) steps
  generalize (s.startHead e rest).usePort (.write op) steps = u at staging kept scrub port
  obtain ⟨map, repair⟩ := kept
  have entry : ∀ b, u.entryOf b = s.entryOf b := fun b => by simp only [State.entryOf, map]
  have newest : ∀ b, (u.newestStaging b).map (·.version) = (s.newestStaging b).map (·.version) := by
    intro b
    simp only [State.newestStaging, staging, queue, List.filter_cons]
    by_cases here : e.block = b
    · cases behind : (rest.filter fun x => x.block = b).getLast? <;>
        simp [here, List.getLast?_cons, behind]
    · simp [here]
  refine ⟨fun b => entry b ▸ h.clean b, fun b => entry b ▸ h.lost b,
    fun b => entry b ▸ h.unwritten b, fun b => ?_, fun x hx => ?_, ?_, ?_, fun o hp => ?_,
    fun o hp hm => ?_, fun n hp => ?_, fun b hb => ?_, fun b hb => ?_⟩
  · rw [newest, entry]
    exact h.staged b
  · rw [entry]
    rw [staging] at hx
    rcases List.mem_cons.mp hx with rfl | hx
    · exact h.held e (queue ▸ List.mem_cons_self)
    · exact h.held x (queue ▸ List.mem_cons_of_mem e hx)
  · rw [staging]
    have tail := h.tail
    rw [queue] at tail
    exact tail
  · have single := h.single
    rw [queue, waitingBlocks_cons] at single
    rw [staging, waitingBlocks_cons, if_neg (by simp)]
    split at single
    · exact (List.nodup_cons.mp single).2
    · exact single
  · obtain rfl := MediaOp.write.inj (Option.some.inj (port.symm.trans hp))
    exact ⟨_, rest, staging, rfl, block.symm, version.symm⟩
  · obtain rfl := Option.some.inj (port.symm.trans hp)
    cases hm
  · cases port.symm.trans hp
  · rw [entry]
    exact h.listed b (repair ▸ hb)
  · rw [entry]
    exact h.scrubbed b (scrub ▸ hb)

/-! ## The resolution of mount -/

/-- The blocks below b are decided: nothing is staged, and only they may be on the lists (R64, R65,
R68, R69). -/
structure State.Decided (s : State) (b : Nat) : Prop where
  entry    : ∀ k, (s.entryOf k).Sound ∧ (s.entryOf k).condition ≠ .staged
  staging  : s.store.staging = []
  listed   : ∀ k, k ∈ s.repair.list → k < b ∧ (s.entryOf k).condition = .lost
  scrubbed : ∀ k, k ∈ s.media.scrub → k < b ∧ (s.entryOf k).condition = .clean

section
variable {s t : State} {b : Nat}

theorem State.Decided.of_view (h : s.Decided b) (store : t.store = s.store)
    (list : t.repair.list = s.repair.list) (scrub : t.media.scrub = s.media.scrub) :
    t.Decided b := by
  have entry : ∀ k, t.entryOf k = s.entryOf k := State.entryOf_of store
  exact ⟨fun k => entry k ▸ h.entry k, store ▸ h.staging,
    fun k hk => entry k ▸ h.listed k (list ▸ hk), fun k hk => entry k ▸ h.scrubbed k (scrub ▸ hk)⟩

/-- Block b is decided, and not listed yet. -/
theorem State.Decided.setEntry (h : s.Decided b) {e : MapEntry} (sound : e.Sound)
    (decided : e.condition ≠ .staged) (written : e ≠ .unwritten) :
    (s.setEntry b e).Decided b := by
  have entry : ∀ k, (s.setEntry b e).entryOf k = if b = k then e else s.entryOf k :=
    fun k => s.entryOf_setEntry b k e (.inl written)
  refine ⟨fun k => ?_, by simpa [State.setEntry] using h.staging, fun k hk => ?_, fun k hk => ?_⟩
  · rw [entry]
    split
    · exact ⟨sound, decided⟩
    · exact h.entry k
  · obtain ⟨below, lost⟩ := h.listed k (by simpa using hk)
    rw [entry, if_neg (by omega)]
    exact ⟨below, lost⟩
  · obtain ⟨below, clean⟩ := h.scrubbed k (by simpa using hk)
    rw [entry, if_neg (by omega)]
    exact ⟨below, clean⟩

theorem State.Decided.next (h : s.Decided b) : s.Decided (b + 1) :=
  ⟨h.entry, h.staging, fun k hk => ⟨by have := (h.listed k hk).1; omega, (h.listed k hk).2⟩,
    fun k hk => ⟨by have := (h.scrubbed k hk).1; omega, (h.scrubbed k hk).2⟩⟩

theorem State.Decided.appendScrub (h : s.Decided b) (clean : (s.entryOf b).condition = .clean) :
    (s.appendScrub b).Decided (b + 1) := by
  unfold State.appendScrub
  split
  · exact { h.next with
      scrubbed := fun k hk => by
        rcases List.mem_append.mp hk with hk | hk
        · exact h.next.scrubbed k hk
        · obtain rfl := List.mem_singleton.mp hk
          exact ⟨Nat.lt_succ_self k, clean⟩ }
  · exact h.next.of_view rfl rfl rfl

theorem State.Decided.handToRepair (h : s.Decided b) (lost : (s.entryOf b).condition = .lost) :
    (s.handToRepair b).Decided (b + 1) := by
  unfold State.handToRepair
  split
  · exact { h.next with
      listed := fun k hk => by
        rcases List.mem_append.mp hk with hk | hk
        · exact h.next.listed k hk
        · obtain rfl := List.mem_singleton.mp hk
          exact ⟨Nat.lt_succ_self k, lost⟩ }
  · exact h.next.of_view rfl rfl rfl

theorem State.retireHome_view (s : State) (b : Nat) (home : Finding) :
    (s.retireHome b home).store = s.store ∧ (s.retireHome b home).repair = s.repair ∧
      (s.retireHome b home).media.scrub = s.media.scrub ∧
      (s.retireHome b home).media.port = s.media.port ∧
      (s.retireHome b home).member = s.member := by
  unfold State.retireHome
  dsimp only
  split <;> simp [State.retire]

theorem State.Decided.resolveClean (h : s.Decided b) (home : Finding) (c : Candidate) :
    (s.resolveClean b home c).Decided (b + 1) := by
  have set : (s.setEntry b ⟨some c.sector, c.version, c.version, .clean⟩).Decided b :=
    h.setEntry ⟨fun _ => ⟨rfl, rfl⟩, by simp, by simp⟩ (by simp) (MapEntry.ne_unwritten (by simp))
  have here : ((s.setEntry b ⟨some c.sector, c.version, c.version, .clean⟩).entryOf b).condition =
      .clean := by
    rw [State.entryOf_setEntry _ _ _ _ (.inl (MapEntry.ne_unwritten (by simp))), if_pos rfl]
  obtain ⟨store, repair, scrub, -, -⟩ :=
    (s.setEntry b ⟨some c.sector, c.version, c.version, .clean⟩).retireHome_view b home
  have retired := set.of_view store (congrArg RepairEngine.list repair) scrub
  have here' := (congrArg MapEntry.condition (State.entryOf_of store b)).trans here
  unfold State.resolveClean
  dsimp only
  split <;> split
  · exact retired.appendScrub here'
  · exact set.appendScrub here
  · exact retired.next
  · exact set.next

theorem State.Decided.resolveLost (h : s.Decided b) (sector : Option Nat) :
    (s.resolveLost b sector).Decided (b + 1) := by
  have set : (s.setEntry b ⟨sector, .nil, .nil, .lost⟩).Decided b :=
    h.setEntry (MapEntry.sound_lost _ _) (by simp) (MapEntry.ne_unwritten (by simp))
  refine (set.of_view (t := (s.setEntry b ⟨sector, .nil, .nil, .lost⟩).raise .blockLost (.block b)
    (.lost .mount)) rfl rfl rfl).handToRepair ?_
  rw [State.entryOf_raise, State.entryOf_setEntry _ _ _ _ (.inl (MapEntry.ne_unwritten (by simp))),
    if_pos rfl]

theorem State.Decided.resolveBlock (h : s.Decided b) (spares : List (Nat × Candidate))
    (home : Finding) : (s.resolveBlock spares b home).Decided (b + 1) := by
  unfold State.resolveBlock
  split
  · exact h.resolveClean home _
  · split
    · exact h.next
    · exact (h.of_view (t := s.retire b) rfl rfl rfl).resolveLost none
    · exact h.resolveLost _
    · exact h.resolveLost _

theorem State.Decided.resolveBlocks (spares : List (Nat × Candidate)) (homes : List Finding)
    (h : s.Decided b) :
    (State.resolveBlocks spares b homes s).Decided (b + homes.length) := by
  induction homes generalizing s b with
  | nil => exact h
  | cons home rest ih =>
    have decided := ih (h.resolveBlock spares home)
    rwa [Nat.add_assoc, Nat.add_comm 1] at decided

theorem State.placeSpare_view (s : State) (n : Nat) (f : Finding) :
    (s.placeSpare n f).store = s.store ∧ (s.placeSpare n f).repair = s.repair ∧
      (s.placeSpare n f).media.scrub = s.media.scrub ∧
      (s.placeSpare n f).media.port = s.media.port ∧ (s.placeSpare n f).member = s.member := by
  unfold State.placeSpare
  (repeat' split) <;> simp [State.retire]

theorem State.placeSpares_view (n : Nat) (fs : List Finding) (s : State) :
    (State.placeSpares n fs s).store = s.store ∧ (State.placeSpares n fs s).repair = s.repair ∧
      (State.placeSpares n fs s).media.scrub = s.media.scrub ∧
      (State.placeSpares n fs s).media.port = s.media.port ∧
      (State.placeSpares n fs s).member = s.member := by
  induction fs generalizing n s with
  | nil => exact ⟨rfl, rfl, rfl, rfl, rfl⟩
  | cons f rest ih =>
    simp only [State.placeSpares, ih, State.placeSpare_view, and_self]

theorem State.resolveBlock_member (s : State) (spares : List (Nat × Candidate)) (b : Nat)
    (home : Finding) : (s.resolveBlock spares b home).member = s.member := by
  unfold State.resolveBlock State.resolveClean State.resolveLost
  dsimp only
  (repeat' split) <;> simp [State.retire, State.retireHome_view]

theorem State.resolveBlocks_member (spares : List (Nat × Candidate)) (b : Nat)
    (homes : List Finding) (s : State) :
    (State.resolveBlocks spares b homes s).member = s.member := by
  induction homes generalizing b s with
  | nil => rfl
  | cons home rest ih => exact (ih _ _).trans (s.resolveBlock_member spares b home)

theorem State.resolve_member (s : State) (findings : List Finding) :
    (s.resolve findings).member = s.member := by
  simp only [State.resolve, State.onStore_member, State.placeSpares_view, State.resolveBlocks_member]

/-- The resolution from an empty map, with nothing staged and nothing listed, decides every block. -/
theorem State.MapSound.resolve {n : Nat} (h : s.MapSound) (port : s.media.port = some (.scanRead n))
    (findings : List Finding) : ∃ b, (s.resolve findings).Decided b := by
  obtain ⟨map, list, scrub⟩ := h.fresh n port
  have unwritten : ∀ k, s.entryOf k = .unwritten := fun k => by simp [State.entryOf, map, lookupKey]
  have start : s.Decided 0 := by
    refine ⟨fun k => ?_, (h.mount _ port rfl).2, fun k hk => ?_, fun k hk => ?_⟩
    · rw [unwritten]
      exact ⟨⟨by simp [MapEntry.unwritten], by simp [MapEntry.unwritten], fun _ => rfl⟩,
        by simp [MapEntry.unwritten]⟩
    · simp [list] at hk
    · simp [scrub] at hk
  have blocks := start.resolveBlocks (copiesFrom Config.firstSpare (findings.drop Config.blocks))
    (findings.take Config.blocks)
  obtain ⟨store, repair, scrub', -, -⟩ := State.placeSpares_view Config.firstSpare
    (findings.drop Config.blocks) (State.resolveBlocks
      (copiesFrom Config.firstSpare (findings.drop Config.blocks)) 0
      (findings.take Config.blocks) s)
  have placed := blocks.of_view store (congrArg RepairEngine.list repair) scrub'
  exact ⟨_, ⟨placed.entry, placed.staging, placed.listed, placed.scrubbed⟩⟩

/-- A decided map is sound, with the marking at the port or the port free. -/
theorem State.Decided.mapSound (h : s.Decided b) (map : t.store.map = s.store.map)
    (staging : t.store.staging = s.store.staging) (list : t.repair.list = s.repair.list)
    (scrub : t.media.scrub = s.media.scrub)
    (port : ∀ op, t.media.port = some op →
      (∃ k, op = .retireMark k) ∧ t.member.phase = .mounting) : t.MapSound := by
  have entry : ∀ k, t.entryOf k = s.entryOf k := fun k => by simp only [State.entryOf, map]
  have nothing : t.store.staging = [] := staging.trans h.staging
  refine ⟨fun k => entry k ▸ (h.entry k).1.clean, fun k => entry k ▸ (h.entry k).1.lost,
    fun k => entry k ▸ (h.entry k).1.unwritten, fun k hk => ?_, by simp [nothing],
    by simp [nothing], by simp [nothing, waitingBlocks], fun op hp => ?_, fun op hp _ => ?_,
    fun n hp => ?_, fun k hk => ?_, fun k hk => ?_⟩
  · exact absurd (entry k ▸ hk) (h.entry k).2
  · obtain ⟨⟨k, hk⟩, -⟩ := port _ hp
    cases hk
  · exact ⟨(port op hp).2, nothing⟩
  · obtain ⟨⟨k, hk⟩, -⟩ := port _ hp
    cases hk
  · exact entry k ▸ (h.listed k (list ▸ hk)).2
  · exact entry k ▸ (h.scrubbed k (scrub ▸ hk)).2

end

/-! ## Every move -/

theorem State.Sound.usePort {s t : State} (h : s.Sound t) (op : MediaOp) (steps : List MediaStep)
    (port : (∀ w, op ≠ .write w) ∧ op.ofMount = false ∨ t.media.port = some op) :
    s.Sound (t.usePort op steps) := by
  refine h.of_subset rfl rfl (fun o hp => ?_) (fun _ hb => hb) ?_
  · obtain rfl := Option.some.inj ((t.usePort_port op steps).symm.trans hp)
    exact port.imp_right fun same => ⟨same, fun _ => rfl⟩
  · simp [State.usePort_media]

/-- The write at the port goes on with the same block and version (R33). -/
theorem State.Sound.goOn {s t : State} (h : s.Sound t) {op next : WriteOp} (steps : List MediaStep)
    (port : t.media.port = some (.write op)) (block : next.block = op.block)
    (version : next.version = op.version) : s.Sound (t.usePort (.write next) steps) where
  map := { h.map with
    port := fun o hp => by
      obtain rfl := MediaOp.write.inj (Option.some.inj ((t.usePort_port _ steps).symm.trans hp))
      rw [block, version]
      exact h.map.port op port
    mount := fun o hp hm => by
      obtain rfl := Option.some.inj ((t.usePort_port _ steps).symm.trans hp)
      cases hm
    fresh := fun n hp => by cases (t.usePort_port _ steps).symm.trans hp
    scrubbed := fun b hb => h.map.scrubbed b (by simpa [State.usePort_media] using hb) }
  away := fun _ o hp => by
    obtain rfl := Option.some.inj ((t.usePort_port _ steps).symm.trans hp)
    rfl

theorem State.finishRead_scrub (s : State) (i : Fin 4) (r : Result) (v : Version) (d : Data) :
    (s.finishRead i r v d).media.scrub = s.media.scrub := by
  unfold State.finishRead
  dsimp only
  split <;> simp [State.dropClientRequest]

theorem State.passOver_scrub (s : State) : s.passOver.media.scrub = s.media.scrub := by
  unfold State.passOver
  split <;> rfl

/-- The phase changes only away from mount (R71, R73). -/
theorem State.Sound.onMember {s t : State} (h : s.Sound t) (f : Membership → Membership)
    (phase : (f t.member).phase = t.member.phase ∨ s.member.phase ≠ .mounting ∨
      t.media.port = none) : s.Sound (t.onMember f) := by
  refine h.of_subset rfl rfl (fun op hp => .inr ⟨hp, fun mount => ?_⟩) (fun _ hb => hb)
    (fun _ hb => hb)
  rcases phase with same | out | free
  · exact same
  · cases mount.symm.trans (h.away out op hp)
  · cases free.symm.trans hp

/-- The station is mounting while a read of the scan is at the port. -/
theorem State.Sound.mounting {s t : State} (h : s.Sound t) {op : MediaOp}
    (port : t.media.port = some op) (mount : op.ofMount = true) : ¬ s.member.phase ≠ .mounting :=
  fun out => by cases mount.symm.trans (h.away out op port)

/-- The resolution has ended, and the marking begins or the port is free (R70). -/
theorem State.Sound.resolve {s t u : State} {n : Nat} (h : s.Sound t) (findings : List Finding)
    (port : t.media.port = some (.scanRead n)) (store : u.store = (t.resolve findings).store)
    (member : u.member = (t.resolve findings).member)
    (list : u.repair = (t.resolve findings).repair)
    (scrub : u.media.scrub = (t.resolve findings).media.scrub)
    (port' : ∀ op, u.media.port = some op → ∃ k, op = .retireMark k) : s.Sound u where
  map := by
    obtain ⟨b, decided⟩ := h.map.resolve port findings
    refine decided.mapSound (congrArg StoreManager.map store) (congrArg StoreManager.staging store)
      (congrArg RepairEngine.list list) scrub fun op hp => ⟨port' op hp, ?_⟩
    rw [member, State.resolve_member]
    exact (h.map.mount _ port rfl).1
  away := fun out => absurd out (h.mounting port rfl)

/-- Mount goes on at the port: the scan after the scan, a mark after the scan or a mark. -/
theorem State.Sound.mountNext {s t : State} (h : s.Sound t) {op next : MediaOp}
    (steps : List MediaStep) (port : t.media.port = some op) (mount : op.ofMount = true)
    (mount' : next.ofMount = true) (scan : ∀ k, next = .scanRead k → ∃ n, op = .scanRead n) :
    s.Sound (t.usePort next steps) where
  map := { h.map with
    port := fun w hp => by
      obtain rfl := Option.some.inj ((t.usePort_port _ steps).symm.trans hp)
      cases mount'
    mount := fun o hp _ => h.map.mount op port mount
    fresh := fun k hp => by
      obtain ⟨n, rfl⟩ := scan k (Option.some.inj ((t.usePort_port _ steps).symm.trans hp))
      simpa [State.usePort_media] using h.map.fresh n port
    scrubbed := fun b hb => h.map.scrubbed b (by simpa [State.usePort_media] using hb) }
  away := fun out => absurd out (h.mounting port mount)

theorem State.Sound.appendScrub {s t : State} (h : s.Sound t) {b : Nat}
    (out : s.member.phase ≠ .mounting) (clean : (t.entryOf b).condition = .clean) :
    s.Sound (t.appendScrub b) := by
  unfold State.appendScrub
  split
  · exact {
      map := { h.map with
        fresh := fun n hp => by cases h.away out _ hp
        scrubbed := fun k hk => by
          rcases List.mem_append.mp hk with hk | hk
          · exact h.map.scrubbed k hk
          · exact List.mem_singleton.mp hk ▸ clean }
      away := h.away }
  · exact h.of_view rfl

theorem State.applyWrite_port (s : State) (op : WriteOp) (written : Bool) (final : Option Nat) :
    (s.applyWrite op written final).media.port = s.media.port := by
  unfold State.applyWrite State.written State.writeFailed
  dsimp only
  (repeat' split) <;> simp

/-- A run of moves keeps the block map sound. -/
theorem State.Runs.sound {s t : State} {claim : Option Version} (hs : s.MapSound)
    (h : s.Runs claim t) : s.Sound t := by
  induction h with
  | refl => exact .refl hs
  | control f _ ih | mount f _ ih | client f _ _ ih | note f _ _ ih | restate g _ _ ih
  | writes f _ _ ih | reads f _ _ ih | learn seq _ ih | claimProposal i p _ _ _ _ ih
  | claimRead i p _ _ _ _ ih | retire n _ ih | window f _ _ ih | pool spares exhausted _ _ ih
  | replace id f _ _ ih =>
    exact ih.of_view rfl
  | place id f _ ih | leave id _ ih | withdraw id _ ih | withdrawAll ids _ ih
  | beat f _ _ ih | finishProposal i r w _ ih =>
    exact ih.of_view (by simp [State.mapView])
  | finishRead i r v d _ ih => exact ih.of_view (by simp [State.mapView, State.finishRead_scrub])
  | passOver _ ih => exact ih.of_view (by simp [State.mapView, State.passOver_scrub])
  | remove r _ _ _ ih => exact ih.of_view (by cases r <;> rfl)
  | member f h _ ih => exact ih.onMember f h
  | repair f list _ _ ih =>
    exact ih.of_subset rfl rfl (fun op hp => .inr ⟨hp, fun _ => rfl⟩) list.subset (fun _ hb => hb)
  | requests f h _ ih => 
    have port : (f _).port = _ := congrArg MediaController.port h
    have scrub : (f _).scrub = _ := congrArg MediaController.scrub h
    exact ih.of_view (by simp only [State.mapView, State.onMedia, port, scrub])
  | answer steps h _ ih => exact ih.of_view (by simp [State.mapView])
  | intake b v d source phase _ _ _ ih =>
    exact ⟨ih.map.intake b v d source (ih.away phase), fun out op hp =>
      ih.away out op (by simpa [State.intake, State.unlistScrub] using hp)⟩
  | appendScrub b phase h _ ih => exact ih.appendScrub phase h
  | lostByRead b phase h _ ih =>
    exact ⟨ih.map.lostByRead (ih.away phase) h, fun out op hp => ih.away out op (by simpa using hp)⟩
  | applyWrite op written final h _ ih =>
    exact ⟨ih.map.applyWrite written final h, fun _ o hp => by
      rw [State.applyWrite_port] at hp
      cases hp⟩
  | freePort _ ih => exact ih.of_free rfl rfl rfl (fun _ hb => hb) (fun _ hb => hb)
  | goOn op next steps h block version _ ih => exact ih.goOn steps h block version
  | startHead e rest op steps h waiting free block version _ ih =>
    refine ⟨ih.map.startHead steps h block version, fun _ o hp => ?_⟩
    obtain rfl := Option.some.inj ((State.usePort_port _ _ steps).symm.trans hp)
    rfl
  | readSector r n v _ _ ih => exact ih.usePort _ _ (.inl ⟨by simp, rfl⟩)
  | @readScrub t b rest n v h _ _ ih =>
    have taken : s.Sound (t.onMedia fun m => { m with scrub := rest }) :=
      ih.of_subset rfl rfl (fun op hp => .inr ⟨hp, fun _ => rfl⟩) (fun _ hb => hb)
        (h ▸ List.subset_cons_self b rest)
    exact taken.usePort _ _ (.inl ⟨by simp, rfl⟩)
  | scanNext n h _ ih =>
    exact ih.mountNext _ h rfl rfl fun k hk => ⟨n, rfl⟩
  | resolveMark findings n k h _ ih =>
    refine ih.resolve findings h rfl rfl rfl rfl fun op hp => ⟨k, ?_⟩
    exact (Option.some.inj hp).symm
  | resolveEnd findings n h _ ih =>
    exact ih.resolve findings h rfl rfl rfl rfl fun op hp => by cases hp
  | markNext n k h _ ih => exact ih.mountNext _ h rfl rfl fun k hk => by cases hk

/-! ## Every step -/

theorem State.MapSound.of_view {s t : State} (h : s.MapSound) (same : t.mapView = s.mapView) :
    t.MapSound :=
  ((State.Sound.refl h).of_view same).map

theorem State.MapSound.empty {t : State} (map : t.store.map = []) (staging : t.store.staging = [])
    (list : t.repair.list = []) (scrub : t.media.scrub = [])
    (port : ∀ op, t.media.port = some op → op = .scanRead 0 ∧ t.member.phase = .mounting) :
    t.MapSound := by
  have entry : ∀ b, t.entryOf b = .unwritten := fun b => by simp [State.entryOf, map, lookupKey]
  refine ⟨fun b hb => ?_, fun b hb => ?_, fun b _ => entry b, fun b hb => ?_, by simp [staging],
    by simp [staging], by simp [staging, waitingBlocks], fun op hp => ?_,
    fun op hp _ => ⟨(port op hp).2, staging⟩, fun n _ => ⟨map, list, scrub⟩, by simp [list],
    by simp [scrub]⟩
  · rw [entry] at hb
    cases hb
  · rw [entry] at hb
    cases hb
  · rw [entry] at hb
    cases hb
  · cases (port _ hp).1

theorem State.Resets.mapSound {s t : State} (h : s.Resets t) : t.MapSound := by
  cases h with
  | held control => exact .empty rfl rfl rfl rfl fun op hp => by cases hp
  | released straps =>
    exact .empty rfl rfl rfl rfl fun op hp => ⟨(Option.some.inj hp).symm, rfl⟩

/-- Settles O59: every move keeps the map sound, and the resets empty it. -/
theorem stepKeepsTheMapSound : Obligations.StepKeepsTheMapSound := by
  intro s t _ hs h
  refine step_keeps (P := State.MapSound) (fun s u claim hs runs => ?_)
    (fun s t _ reset => reset.mapSound) (fun s rest hs => hs.of_view rfl) hs h
  have kept := (runs.sound hs).map
  cases claim with
  | none => exact kept
  | some v => exact kept.of_view rfl

end Sys2Proof.Machine
end

section
/-! PROOF. The version clock is at or above every version held (R3, R4, R67): the moves that change a
version of the map or of the staging queue, and the clock that the resolution of mount sets. -/

namespace Sys2Proof.Machine

/-! ## The versions held -/

/-- Every version in the map and in the staging queue has the property. -/
structure State.Holds (s : State) (p : Version → Prop) : Prop where
  map    : ∀ b, p (s.entryOf b).version
  staged : ∀ e, e ∈ s.store.staging → p e.version

theorem State.Holds.mono {s t : State} {p q : Version → Prop} (h : s.Holds p)
    (imp : ∀ v, p v → q v) (map : t.store.map = s.store.map)
    (staging : t.store.staging ⊆ s.store.staging) : t.Holds q where
  map := fun b => by
    have entry : t.entryOf b = s.entryOf b := by simp only [State.entryOf, map]
    exact entry ▸ imp _ (h.map b)
  staged := fun e he => imp _ (h.staged e (staging he))

/-- What a version held comes to: the clock has its sequence, or a local write claims it (R3). -/
def State.Knows (s : State) (claim : Option Version) (v : Version) : Prop :=
  v.seq ≤ s.store.clock ∨ claim = some v

theorem le_learn_of_le {clock seq x : BitVec 32} (h : x ≤ clock) :
    x ≤ if clock < seq then seq else clock := by
  split <;> bv_omega

/-- Nothing of the versions held changes, and the clock does not go back. -/
theorem State.Holds.of_store {s t : State} {claim : Option Version} (h : s.Holds (s.Knows claim))
    (map : t.store.map = s.store.map) (staging : t.store.staging = s.store.staging)
    (clock : s.store.clock ≤ t.store.clock) : t.Holds (t.Knows claim) :=
  h.mono (fun _ hv => hv.imp_left fun le => BitVec.le_trans le clock) map (fun _ he => staging ▸ he)

section
variable {s : State} {claim : Option Version}

/-- A version accepted is known, if the offer was: by the clock, by the entry or as a claim. -/
theorem State.Holds.intake (h : s.Holds (s.Knows claim)) (b : Nat) {v : Version} (d : Data)
    (source : Source)
    (held : v.seq ≤ s.store.clock ∨ v = (s.entryOf b).version ∨ claim = some v) :
    (s.intake b v d source).Holds ((s.intake b v d source).Knows claim) := by
  have known : s.Knows claim v := by
    rcases held with le | rfl | claimed
    · exact .inl le
    · exact h.map b
    · exact .inr claimed
  refine ⟨fun k => ?_, fun e he => ?_⟩
  · rw [show (s.intake b v d source).entryOf k = _ from s.entryOf_take b k v d source]
    split
    · exact known
    · exact h.map k
  · have queued : e ∈ stage b v d source s.store.staging := by simpa [State.intake] using he
    rcases mem_stage queued with rfl | he
    · exact known
    · exact h.staged e he

/-- The entry of one block changes, but not its version. -/
theorem State.Holds.update {t : State} (h : s.Holds (s.Knows claim)) {b : Nat} {x : MapEntry}
    (entry : ∀ k, t.entryOf k = if b = k then x else s.entryOf k)
    (version : x.version = (s.entryOf b).version)
    (staging : t.store.staging ⊆ s.store.staging) (clock : t.store.clock = s.store.clock) :
    t.Holds (t.Knows claim) := by
  have same : t.Knows claim = s.Knows claim := by
    unfold State.Knows
    rw [clock]
  refine ⟨fun k => ?_, fun e he => same ▸ h.staged e (staging he)⟩
  rw [same, entry]
  split
  · exact version ▸ h.map b
  · exact h.map k

theorem State.handToRepair_store (s : State) (b : Nat) : (s.handToRepair b).store = s.store := by
  simp

theorem State.Holds.loseBlock (h : s.Holds (s.Knows claim)) (b : Nat) (sector : Option Nat)
    (how : LostBy) :
    (s.loseBlock b sector how).Holds ((s.loseBlock b sector how).Knows claim) :=
  h.update (s.entryOf_loseBlock b sector how) rfl (by simp) (by simp)

theorem State.Holds.handToRepair (h : s.Holds (s.Knows claim)) (b : Nat) :
    (s.handToRepair b).Holds ((s.handToRepair b).Knows claim) := by
  have same := s.handToRepair_store b
  exact h.of_store (by rw [same]) (by rw [same]) (by rw [same]; exact BitVec.le_refl _)

theorem State.Holds.setEntry (h : s.Holds (s.Knows claim)) (b : Nat) {x : MapEntry}
    (version : x.version = (s.entryOf b).version) (written : x.condition ≠ .unwritten) :
    (s.setEntry b x).Holds ((s.setEntry b x).Knows claim) :=
  h.update (fun k => s.entryOf_setEntry b k x (.inl (MapEntry.ne_unwritten written))) version
    (by simp [State.setEntry]) rfl

theorem State.Holds.writeFailed (h : s.Holds (s.Knows claim)) (op : WriteOp) (final : Option Nat)
    (another : Bool) (source : Source) (staged : (s.entryOf op.block).condition = .staged) :
    (s.writeFailed op final another source).Holds
      ((s.writeFailed op final another source).Knows claim) := by
  unfold State.writeFailed
  dsimp only
  split
  · exact h.setEntry _ rfl (by simp [staged])
  · split
    · exact h.loseBlock _ _ _
    · exact (h.loseBlock _ _ _).handToRepair _

theorem State.Holds.written (h : s.Holds (s.Knows claim)) (op : WriteOp) (n : Nat) (another : Bool)
    (staged : (s.entryOf op.block).condition = .staged) :
    (s.written op n another).Holds ((s.written op n another).Knows claim) :=
  h.setEntry _ rfl (by cases another <;> simp [staged])

/-- The end of a write takes the head off the queue and changes no version (R25). -/
theorem State.Holds.applyWrite (h : s.Holds (s.Knows claim)) {op : WriteOp} (written : Bool)
    (final : Option Nat) (sound : s.MapSound) (port : s.media.port = some (.write op)) :
    (s.freePort.applyWrite op written final).Holds
      ((s.freePort.applyWrite op written final).Knows claim) := by
  obtain ⟨e, rest, queue, writing, block, version⟩ := sound.port op port
  have staged := sound.staged_of_writes ⟨queue, writing, block, version⟩
  have left : (s.freePort.onStore fun st => { st with staging := rest }).Holds
      (s.Knows claim) :=
    h.mono (fun _ hv => hv) rfl (queue ▸ List.subset_cons_self e rest)
  unfold State.applyWrite
  rw [show s.freePort.store.staging = e :: rest from queue]
  dsimp only
  split
  · exact State.Holds.written left _ _ _ staged
  · exact State.Holds.writeFailed left _ _ _ _ staged

theorem State.Holds.startHead (h : s.Holds (s.Knows claim)) {e : StagingEntry}
    {rest : List StagingEntry} (op : MediaOp) (steps : List MediaStep)
    (queue : s.store.staging = e :: rest) :
    ((s.startHead e rest).usePort op steps).Holds
      (((s.startHead e rest).usePort op steps).Knows claim) := by
  refine ⟨h.map, fun x hx => ?_⟩
  rcases List.mem_cons.mp hx with rfl | hx
  · exact h.staged e (queue ▸ List.mem_cons_self)
  · exact h.staged x (queue ▸ List.mem_cons_of_mem e hx)

end

/-! ## The resolution of mount -/

/-- The sequence of a copy found is at most the largest (R67). -/
theorem le_largestSequence {findings : List Finding} {b k : Nat} {v : Version}
    (h : Finding.copy b v k ∈ findings) : v.seq ≤ largestSequence findings := by
  induction findings with
  | nil => cases h
  | cons f rest ih =>
    have larger : largestSequence rest ≤ largestSequence (f :: rest) := by
      cases f with
      | copy b v k =>
        simp only [largestSequence]
        split <;> bv_omega
      | blank | mark | unreadable => exact BitVec.le_refl _
    rcases List.mem_cons.mp h with rfl | h
    · simp only [largestSequence]
      split <;> bv_omega
    · exact BitVec.le_trans (ih h) larger

theorem copy_of_mem_copiesFrom {n : Nat} {findings : List Finding} {p : Nat × Candidate}
    (h : p ∈ copiesFrom n findings) : ∃ k, Finding.copy p.1 p.2.version k ∈ findings := by
  induction findings generalizing n with
  | nil => cases h
  | cons f rest ih =>
    cases f with
    | copy b v k =>
      rcases List.mem_cons.mp h with rfl | h
      · exact ⟨k, List.mem_cons_self⟩
      · exact (ih h).imp fun _ hk => List.mem_cons_of_mem _ hk
    | blank | mark | unreadable => exact (ih h).imp fun _ hk => List.mem_cons_of_mem _ hk

/-- A candidate of a block is its home sector's copy or a spare's (R63). -/
theorem mem_candidatesOf {b : Nat} {home : Finding} {spares : List (Nat × Candidate)}
    {c : Candidate} (h : c ∈ candidatesOf b home spares) :
    home = .copy b c.version c.corrected ∧ c.sector = b ∨ (b, c) ∈ spares := by
  have of_spare : c ∈ (spares.filter fun p => p.1 = b).map (·.2) → (b, c) ∈ spares := fun h => by
    obtain ⟨p, hp, rfl⟩ := List.mem_map.mp h
    obtain ⟨hp, block⟩ := List.mem_filter.mp hp
    have block : p.1 = b := by simpa using block
    exact block ▸ hp
  unfold candidatesOf at h
  dsimp only at h
  split at h
  · split at h
    · rename_i same
      rcases List.mem_cons.mp h with rfl | h
      · exact .inl ⟨by rw [same], rfl⟩
      · exact .inr (of_spare h)
    · exact .inr (of_spare h)
  · exact .inr (of_spare h)

theorem winner_mem {l : List Candidate} {c : Candidate} (h : winner l = some c) : c ∈ l := by
  induction l generalizing c with
  | nil => cases h
  | cons a rest ih =>
    unfold winner at h
    split at h
    · exact Option.some.inj h ▸ List.mem_cons_self
    · rename_i w won
      split at h
      · exact Option.some.inj h ▸ List.mem_cons_of_mem a (ih won)
      · exact Option.some.inj h ▸ List.mem_cons_self

section
variable {s : State} {bound : BitVec 32}

theorem State.Holds.resolveEntry (h : s.Holds fun v => v.seq ≤ bound) (b : Nat) {x : MapEntry}
    (version : x.version.seq ≤ bound) (written : x.condition ≠ .unwritten) :
    (s.setEntry b x).Holds fun v => v.seq ≤ bound := by
  refine ⟨fun k => ?_, fun e he => h.staged e (by simpa [State.setEntry] using he)⟩
  rw [s.entryOf_setEntry b k x (.inl (MapEntry.ne_unwritten written))]
  split
  · exact version
  · exact h.map k

theorem State.Holds.of_same_store {t : State} {p : Version → Prop} (h : s.Holds p)
    (same : t.store = s.store) : t.Holds p :=
  h.mono (fun _ hv => hv) (by rw [same]) (by rw [same]; exact fun _ he => he)

theorem State.Holds.resolveBlock (h : s.Holds fun v => v.seq ≤ bound)
    {spares : List (Nat × Candidate)} (b : Nat) {home : Finding}
    (spare : ∀ p, p ∈ spares → p.2.version.seq ≤ bound)
    (here : ∀ k v n, home = .copy k v n → v.seq ≤ bound) :
    (s.resolveBlock spares b home).Holds fun v => v.seq ≤ bound := by
  have lost : ∀ (u : State) sector, (u.Holds fun v => v.seq ≤ bound) →
      (u.resolveLost b sector).Holds fun v => v.seq ≤ bound := fun u sector hu =>
    (hu.resolveEntry b (x := ⟨sector, .nil, .nil, .lost⟩) (Nat.zero_le _) (by simp)
      ).of_same_store (by simp [State.resolveLost])
  unfold State.resolveBlock
  split
  · rename_i c won
    have version : c.version.seq ≤ bound := by
      rcases mem_candidatesOf (winner_mem won) with ⟨copy, -⟩ | listed
      · exact here _ _ _ copy
      · exact spare _ listed
    refine (h.resolveEntry b (x := ⟨some c.sector, c.version, c.version, .clean⟩) version
      (by simp)).of_same_store ?_
    unfold State.resolveClean
    dsimp only
    (repeat' split) <;> simp [State.retireHome_view]
  · split
    · exact h
    · exact lost _ _ (h.of_same_store rfl)
    · exact lost _ _ h
    · exact lost _ _ h

theorem State.Holds.resolveBlocks {spares : List (Nat × Candidate)}
    (spare : ∀ p, p ∈ spares → p.2.version.seq ≤ bound) (homes : List Finding)
    (home : ∀ k v n, Finding.copy k v n ∈ homes → v.seq ≤ bound) (b : Nat)
    (h : s.Holds fun v => v.seq ≤ bound) :
    (State.resolveBlocks spares b homes s).Holds fun v => v.seq ≤ bound := by
  induction homes generalizing s b with
  | nil => exact h
  | cons f rest ih =>
    refine ih (fun k v n hf => home k v n (List.mem_cons_of_mem f hf)) (b + 1)
      (h.resolveBlock b spare fun k v n same => home k v n (same ▸ List.mem_cons_self))

end

/-- Every version that the resolution lists is that of a copy found, and the clock takes the largest
sequence of any (R67). -/
theorem State.MapSound.resolve_holds {s : State} {n : Nat} (h : s.MapSound)
    (port : s.media.port = some (.scanRead n)) (findings : List Finding) :
    (s.resolve findings).Holds fun v => v.seq ≤ (s.resolve findings).store.clock := by
  obtain ⟨map, -, -⟩ := h.fresh n port
  have staging := (h.mount _ port rfl).2
  have start : s.Holds fun v => v.seq ≤ largestSequence findings :=
    ⟨fun b => by
      have unwritten : s.entryOf b = .unwritten := by simp [State.entryOf, map, lookupKey]
      rw [unwritten]
      exact Nat.zero_le _, by simp [staging]⟩
  have blocks := start.resolveBlocks
    (spares := copiesFrom Config.firstSpare (findings.drop Config.blocks))
    (fun p hp => by
      obtain ⟨k, hk⟩ := copy_of_mem_copiesFrom hp
      exact le_largestSequence (List.mem_of_mem_drop hk))
    (findings.take Config.blocks)
    (fun k v n hf => le_largestSequence (List.mem_of_mem_take hf)) 0
  have placed := blocks.of_same_store (State.placeSpares_view Config.firstSpare
    (findings.drop Config.blocks) _).1
  exact ⟨placed.map, placed.staged⟩

/-! ## Every move -/

theorem State.Runs.holds {s t : State} {claim : Option Version} (hs : s.MapSound)
    (bound : s.Holds (s.Knows claim)) (h : s.Runs claim t) : t.Holds (t.Knows claim) := by
  induction h with
  | refl => exact bound
  | control f _ ih | member f _ _ ih | mount f _ ih | client f _ _ ih | note f _ _ ih
  | restate g _ _ ih | writes f _ _ ih | reads f _ _ ih | claimProposal i p _ _ _ _ ih
  | claimRead i p _ _ _ _ ih | retire n _ ih | window f _ _ ih | pool spares exhausted _ _ ih
  | replace id f _ _ ih | repair f _ _ _ ih | requests f _ _ ih | answer steps _ _ ih
  | freePort _ ih | goOn op next steps _ _ _ _ ih | readSector r n v _ _ ih
  | readScrub b rest n v _ _ _ ih | scanNext n _ _ ih | markNext n k _ _ ih =>
    exact ih.of_store rfl rfl (BitVec.le_refl _)
  | place id f _ ih | leave id _ ih | withdraw id _ ih | withdrawAll ids _ ih
  | beat f _ _ ih | finishProposal i r w _ ih | finishRead i r v d _ ih | passOver _ ih
  | appendScrub b _ _ _ ih =>
    exact ih.of_store (by simp) (by simp) (by simp)
  | @remove t r _ _ _ ih =>
    have same : (t.removeCompletion r).store = t.store := by cases r <;> rfl
    exact ih.of_store (by rw [same]) (by rw [same]) (by rw [same]; exact BitVec.le_refl _)
  | @learn t seq _ ih => exact ih.of_store rfl rfl (le_learn_of_le (BitVec.le_refl t.store.clock))
  | intake b v d source _ _ held _ ih => exact ih.intake b d source held
  | lostByRead b _ _ _ ih => exact (ih.loseBlock _ _ _).handToRepair _
  | applyWrite op written final port went ih =>
    exact ih.applyWrite written final (went.sound hs).map port
  | startHead e rest op steps queue _ _ _ _ _ ih => exact ih.startHead _ _ queue
  | resolveMark findings n k port went _ | resolveEnd findings n port went _ =>
    exact ((went.sound hs).map.resolve_holds port findings).mono (fun _ hv => .inl hv) rfl
      fun _ he => he

/-! ## Every step -/

theorem State.ClockBound.holds {s : State} (h : s.ClockBound) (claim : Option Version) :
    s.Holds (s.Knows claim) :=
  ⟨fun b => .inl (h.map b), fun e he => .inl (h.staged e he)⟩

theorem State.Holds.clockBound {s : State} {claim : Option Version} (h : s.Holds (s.Knows claim)) :
    (s.learnClaim claim).ClockBound := by
  cases claim with
  | none => exact ⟨fun b => (h.map b).resolve_right (by simp),
      fun e he => (h.staged e he).resolve_right (by simp)⟩
  | some v =>
    have known : ∀ w, s.Knows (some v) w → w.seq ≤ (s.learn v.seq).store.clock := by
      rintro w (le | claimed)
      · exact le_learn_of_le le
      · exact Option.some.inj claimed ▸ s.le_clock_learn v.seq
    exact ⟨fun b => known _ (h.map b), fun e he => known _ (h.staged e he)⟩

/-- Settles O60: the versions that a run of moves brings in are known to the clock or claimed, and
the clock takes a claim; the resets empty map and queue. -/
theorem stepKeepsTheClockBound : Obligations.StepKeepsTheClockBound := by
  intro s t sound bound h
  refine (step_keeps (P := fun s => s.MapSound ∧ s.ClockBound) (fun s u claim hs runs => ?_)
    (fun s t _ reset => ⟨reset.mapSound, ?_⟩)
    (fun s rest hs => ⟨hs.1.of_view rfl, hs.2.map, hs.2.staged⟩) ⟨sound, bound⟩ h).2
  · have kept := (runs.sound hs.1).map
    refine ⟨?_, (runs.holds hs.1 (hs.2.holds claim)).clockBound⟩
    cases claim with
    | none => exact kept
    | some v => exact kept.of_view rfl
  · cases reset <;> exact ⟨fun b => Nat.zero_le _, fun e he => by cases he⟩

end Sys2Proof.Machine
end

section
/-! PROOF. The queues and lists stay within their capacities, the tables in their form, and the
completion records are those of the FINISHED entries: unit by unit, then for every move. -/

namespace Sys2Proof.Machine

/-! ## The line -/

/-- What the line controller keeps (R80, R82, R84). -/
structure LineController.Wf (l : LineController) : Prop where
  queue   : l.queue.length ≤ 16
  waiting : l.waiting ≠ [] → l.queue.length = 16
  ordered : classOrdered l.queue = true
  beat    : ∀ f, l.replacement = some f → f.isHeartbeat = true

theorem classOrdered_cons (q : QueuedFrame) (l : List QueuedFrame) :
    classOrdered (q :: l) = true ↔
      (∀ r, r ∈ l → q.frame.body.cls ≤ r.frame.body.cls) ∧ classOrdered l = true := by
  simp [classOrdered]

/-- The order is one of the classes alone. -/
theorem classOrdered_iff_pairwise (l : List QueuedFrame) :
    classOrdered l = true ↔ (l.map fun q => q.frame.body.cls).Pairwise (· ≤ ·) := by
  induction l with
  | nil => simp [classOrdered]
  | cons q rest ih =>
    rw [classOrdered_cons, List.map_cons, List.pairwise_cons, ih]
    simp

theorem classOrdered_of_sublist {l m : List QueuedFrame} (h : l.Sublist m)
    (ordered : classOrdered m = true) : classOrdered l = true :=
  (classOrdered_iff_pairwise l).mpr
    (((classOrdered_iff_pairwise m).mp ordered).sublist (h.map _))

theorem classOrdered_map {l : List QueuedFrame} {g : QueuedFrame → QueuedFrame}
    (h : ∀ q, q ∈ l → (g q).frame.body.cls = q.frame.body.cls) :
    classOrdered (l.map g) = classOrdered l := by
  have same : (l.map g).map (fun q => q.frame.body.cls) = l.map fun q => q.frame.body.cls := by
    simpa using h
  rw [Bool.eq_iff_iff, classOrdered_iff_pairwise, classOrdered_iff_pairwise, same]

theorem Frame.cls_of_isHeartbeat {f : Frame} (h : f.isHeartbeat = true) : f.body.cls = 1 := by
  unfold Frame.isHeartbeat at h
  split at h
  · rename_i body
    simp [body, Body.cls]
  · cases h

theorem replaceHeartbeat_cls {f : Frame} (h : f.isHeartbeat = true) (l : List QueuedFrame) :
    (replaceHeartbeat f l).map (fun q => q.frame.body.cls) = l.map fun q => q.frame.body.cls := by
  induction l with
  | nil => rfl
  | cons q rest ih =>
    unfold replaceHeartbeat
    split
    · rename_i beat
      simp [Frame.cls_of_isHeartbeat h, Frame.cls_of_isHeartbeat beat.1]
    · simp [ih]

section
variable {s : State}

/-- A line controller with a queue of the same classes, the same frames waiting, and the replacement
kept or taken. -/
theorem LineController.Wf.of_same_classes {l m : LineController} (h : l.Wf)
    (classes : m.queue.map (fun q => q.frame.body.cls) = l.queue.map fun q => q.frame.body.cls)
    (waiting : m.waiting.length = l.waiting.length)
    (beat : ∀ f, m.replacement = some f → f.isHeartbeat = true) : m.Wf := by
  have length : m.queue.length = l.queue.length := by simpa using congrArg List.length classes
  refine ⟨length ▸ h.queue, fun some_wait => ?_, ?_, beat⟩
  · refine length ▸ h.waiting fun none => some_wait ?_
    exact List.eq_nil_of_length_eq_zero (by simp [waiting, none])
  · rw [classOrdered_iff_pairwise, classes, ← classOrdered_iff_pairwise]
    exact h.ordered

theorem State.join_line (s : State) (id : Nat) (f : Frame) :
    (s.join id f).line = { s.line with queue := enqueue ⟨id, s.atJoining f, .unsent⟩ s.line.queue } := by
  simp [State.join]

/-- A frame that joins with room in the queue leaves it at most full and in order (R80). -/
theorem LineController.Wf.enqueue {l : LineController} (q : QueuedFrame) (h : l.queue.length < 16)
    (ordered : classOrdered l.queue = true) (waiting : l.waiting ≠ [] → l.queue.length = 15)
    (beat : ∀ f, l.replacement = some f → f.isHeartbeat = true) :
    LineController.Wf { l with queue := Machine.enqueue q l.queue } := by
  refine ⟨?_, fun some_wait => ?_, classOrdered_enqueue q l.queue ordered, beat⟩
  · simp only [length_enqueue]
    omega
  · have := waiting some_wait
    simp only [length_enqueue]
    omega

theorem State.place_wf (h : s.line.Wf) (id : Nat) (f : Frame) : (s.place id f).line.Wf := by
  unfold State.place
  split
  · rename_i room
    have room : s.line.queue.length < 16 := room
    rw [State.join_line]
    exact .enqueue _ room h.ordered (fun w => by have := h.waiting w; omega) h.beat
  · rename_i full
    have full : s.line.queue.length = 16 := le_antisymm h.queue (Nat.not_lt.mp full)
    split
    · exact h
    · exact ⟨h.queue, fun _ => full, h.ordered, h.beat⟩

theorem bestWaiting_mem {l : List WaitingFrame} {w : WaitingFrame} (h : bestWaiting l = some w) :
    w ∈ l := by
  induction l generalizing w with
  | nil => cases h
  | cons a rest ih =>
    unfold bestWaiting at h
    split at h
    · exact Option.some.inj h ▸ List.mem_cons_self
    · rename_i b best
      split at h
      · exact Option.some.inj h ▸ List.mem_cons_of_mem a (ih best)
      · exact Option.some.inj h ▸ List.mem_cons_self

theorem bestWaiting_eq_none {l : List WaitingFrame} (h : bestWaiting l = none) : l = [] := by
  cases l with
  | nil => rfl
  | cons a rest =>
    unfold bestWaiting at h
    repeat' split at h
    all_goals cases h

/-- The line controller as a place has just been freed: one place short at most, with frames still
waiting. -/
structure LineController.Freed (l : LineController) : Prop where
  queue   : l.queue.length ≤ 16
  waiting : l.waiting ≠ [] → 15 ≤ l.queue.length
  ordered : classOrdered l.queue = true
  beat    : ∀ f, l.replacement = some f → f.isHeartbeat = true

/-- The freed place is handed out, and the line controller is in form again (R82). -/
theorem State.handOut_wf (h : s.line.Freed) : s.handOut.line.Wf := by
  unfold State.handOut
  split
  · rename_i room
    have room : s.line.queue.length < 16 := room
    split
    · rename_i nobody
      exact ⟨h.queue, fun w => absurd (bestWaiting_eq_none nobody) w, h.ordered, h.beat⟩
    · rename_i w best
      have short : s.line.queue.length = 15 := by
        have := h.waiting (List.ne_nil_of_mem (bestWaiting_mem best))
        omega
      rw [State.join_line]
      exact .enqueue _ room h.ordered (fun _ => short) h.beat
  · rename_i full
    have full : s.line.queue.length = 16 := le_antisymm h.queue (Nat.not_lt.mp full)
    exact ⟨h.queue, fun _ => full, h.ordered, h.beat⟩

theorem State.leaveQueue_wf (h : s.line.Wf) (id : Nat) : (s.leaveQueue id).line.Wf := by
  have taken : 15 ≤ (s.line.queue.eraseP (·.id = id)).length ∨ s.line.queue.length ≠ 16 := by
    rw [List.length_eraseP]
    split <;> omega
  refine State.handOut_wf ⟨?_, fun w => ?_, ?_, h.beat⟩
  · exact (List.length_eraseP_le).trans h.queue
  · have := h.waiting w
    exact taken.resolve_right (by omega)
  · exact classOrdered_of_sublist List.eraseP_sublist h.ordered

theorem LineController.Wf.filterWaiting {l : LineController} (h : l.Wf)
    (test : WaitingFrame → Bool) :
    LineController.Wf { l with waiting := l.waiting.filter test } :=
  ⟨h.queue, fun w => h.waiting fun none => w (by simp [none]), h.ordered, h.beat⟩

theorem State.withdraw_wf (h : s.line.Wf) (id : Nat) : (s.withdraw id).line.Wf := by
  unfold State.withdraw
  split
  · exact h.filterWaiting _
  · split
    · exact h
    · split
      · exact State.leaveQueue_wf h id
      · refine h.of_same_classes ?_ rfl h.beat
        simp only [State.onLine_line, List.map_map]
        refine List.map_congr_left fun q _ => ?_
        simp only [Function.comp_apply]
        split
        · unfold QueuedFrame.withdrawn
          split <;> rfl
        · rfl

theorem State.withdrawAll_wf (h : s.line.Wf) (ids : List Nat) : (s.withdrawAll ids).line.Wf := by
  have start : (s.onLine fun l =>
    { l with waiting := l.waiting.filter (!ids.contains ·.id) }).line.Wf := h.filterWaiting _
  unfold State.withdrawAll
  generalize (s.onLine fun l => { l with waiting := l.waiting.filter (!ids.contains ·.id) }) = t
    at start
  clear h
  generalize ids = l
  induction l generalizing t with
  | nil => exact start
  | cons id rest ih => exact ih _ (State.withdraw_wf start id)

theorem State.placeHeartbeat_wf (h : s.line.Wf) {f : Frame} (beat : f.isHeartbeat = true) :
    (s.placeHeartbeat f).line.Wf := by
  unfold State.placeHeartbeat
  split
  · exact h.of_same_classes (replaceHeartbeat_cls beat _) rfl h.beat
  · split
    · exact ⟨h.queue, h.waiting, h.ordered, fun g hg => Option.some.inj hg ▸ beat⟩
    · split
      · exact h.of_same_classes rfl (by simp) h.beat
      · exact State.place_wf (s := s.bumpId) ⟨h.queue, h.waiting, h.ordered, h.beat⟩ _ f

theorem State.replaceFrame_wf (h : s.line.Wf) (id : Nat) {f : Frame}
    (beat : f.isHeartbeat = true) : (s.replaceFrame id f).line.Wf := by
  refine h.of_same_classes ?_ rfl h.beat
  simp only [State.replaceFrame, State.onLine_line, List.map_map]
  refine List.map_congr_left fun q _ => ?_
  simp only [Function.comp_apply]
  split
  · rename_i heartbeat
    simp [Frame.cls_of_isHeartbeat beat, Frame.cls_of_isHeartbeat heartbeat.2]
  · rfl

end

/-! A frame that joins moves the serve slot and the cursor on, and nothing else of the repair
engine. -/

section
variable (s : State)

@[simp] theorem State.join_keeps_repair (id : Nat) (f : Frame) :
    (s.join id f).repair.fetch = s.repair.fetch ∧
    (s.join id f).repair.serveQueue = s.repair.serveQueue := by
  simp [State.join]

@[simp] theorem State.place_keeps_repair (id : Nat) (f : Frame) :
    (s.place id f).repair.fetch = s.repair.fetch ∧
    (s.place id f).repair.serveQueue = s.repair.serveQueue := by
  unfold State.place
  (repeat' split) <;> simp

@[simp] theorem State.handOut_keeps_repair :
    s.handOut.repair.fetch = s.repair.fetch ∧
    s.handOut.repair.serveQueue = s.repair.serveQueue := by
  unfold State.handOut
  (repeat' split) <;> simp

@[simp] theorem State.leaveQueue_keeps_repair (id : Nat) :
    (s.leaveQueue id).repair.fetch = s.repair.fetch ∧
    (s.leaveQueue id).repair.serveQueue = s.repair.serveQueue := by
  unfold State.leaveQueue
  simp

@[simp] theorem State.withdraw_keeps_repair (id : Nat) :
    (s.withdraw id).repair.fetch = s.repair.fetch ∧
    (s.withdraw id).repair.serveQueue = s.repair.serveQueue := by
  unfold State.withdraw
  (repeat' split) <;> simp

@[simp] theorem State.withdrawAll_keeps_repair (ids : List Nat) :
    (s.withdrawAll ids).repair.fetch = s.repair.fetch ∧
    (s.withdrawAll ids).repair.serveQueue = s.repair.serveQueue := by
  have kept := foldl_keeps (fun s : State => (s.repair.fetch, s.repair.serveQueue)) State.withdraw
    (fun s i => by simp) ids
    (s.onLine fun l => { l with waiting := l.waiting.filter (!ids.contains ·.id) })
  simpa [State.withdrawAll] using kept

@[simp] theorem State.placeHeartbeat_keeps_repair (f : Frame) :
    (s.placeHeartbeat f).repair.fetch = s.repair.fetch ∧
    (s.placeHeartbeat f).repair.serveQueue = s.repair.serveQueue := by
  unfold State.placeHeartbeat
  (repeat' split) <;> simp

@[simp] theorem State.finishProposal_keeps_repair (i : Fin 8) (r : Result) (w : Option Version) :
    (s.finishProposal i r w).repair.fetch = s.repair.fetch ∧
    (s.finishProposal i r w).repair.serveQueue = s.repair.serveQueue := by
  unfold State.finishProposal
  dsimp only
  split <;> simp

@[simp] theorem State.finishRead_keeps_repair (i : Fin 4) (r : Result) (v : Version) (d : Data) :
    (s.finishRead i r v d).repair.fetch = s.repair.fetch ∧
    (s.finishRead i r v d).repair.serveQueue = s.repair.serveQueue := by
  unfold State.finishRead
  dsimp only
  split <;> simp

end

/-! ## The media controller and the store -/

/-- What the media controller keeps (R26, R28, R36, R49, R61). -/
structure MediaController.Wf (m : MediaController) : Prop where
  scrub    : m.scrub.length ≤ 16
  passed   : m.passedOver ≤ 2
  sectors  : sectorsWf m.sectors = true
  spares   : m.spares.Pairwise (· < ·)
  scanning : ∀ n, m.port = some (.scanRead n) → m.spares = []
  idle     : m.port = none → m.steps = [] ∧ m.stepWindow = none

section
variable {m : MediaController}

theorem MediaController.sectorsWf_run (h : sectorsWf m.sectors = true) (steps : List MediaStep) :
    sectorsWf (m.run steps).sectors = true := by
  cases steps with
  | nil => exact h
  | cons step rest => exact sectorsWf_programmed _ _ h

/-- New steps for an operation that is at the port. -/
theorem MediaController.Wf.run (h : m.Wf) {op : MediaOp} (port : m.port = some op)
    (steps : List MediaStep) : (m.run steps).Wf := by
  refine ⟨?_, ?_, MediaController.sectorsWf_run h.sectors steps, ?_, fun n hp => ?_, fun hp => ?_⟩
  · simpa using h.scrub
  · simpa using h.passed
  · simpa using h.spares
  · simpa using h.scanning n (by simpa using hp)
  · simp [port] at hp

/-- An operation comes to the port with its steps; a scan only as the pool is still empty. -/
theorem MediaController.Wf.use (h : m.Wf) (op : MediaOp) (steps : List MediaStep)
    (scan : ∀ n, op = .scanRead n → m.spares = []) :
    (MediaController.run { m with port := some op } steps).Wf := by
  have taken : MediaController.Wf { m with port := some op } :=
    ⟨h.scrub, h.passed, h.sectors, h.spares, fun n hp => scan n (Option.some.inj hp),
      fun hp => by cases hp⟩
  exact taken.run rfl steps

end

/-- The spares are numbered from 4096 on, and those found free are listed by rising number (R66). -/
theorem State.placeSpares_spares (n : Nat) (fs : List Finding) (s : State)
    (ordered : s.media.spares.Pairwise (· < ·)) (below : ∀ k, k ∈ s.media.spares → k < n) :
    (State.placeSpares n fs s).media.spares.Pairwise (· < ·) := by
  induction fs generalizing n s with
  | nil => exact ordered
  | cons f rest ih =>
    have listed : (s.placeSpare n f).media.spares = s.media.spares ∨
        (s.placeSpare n f).media.spares = s.media.spares ++ [n] := by
      unfold State.placeSpare
      (repeat' split) <;> simp [State.retire]
    refine ih (n + 1) _ ?_ fun k hk => ?_
    · rcases listed with same | more
      · exact same ▸ ordered
      · rw [more, List.pairwise_append]
        exact ⟨ordered, List.pairwise_singleton _ _, fun a ha b hb =>
          List.mem_singleton.mp hb ▸ below a ha⟩
    · rcases listed with same | more
      · exact Nat.lt_succ_of_lt (below k (same ▸ hk))
      · rw [more] at hk
        rcases List.mem_append.mp hk with hk | hk
        · exact Nat.lt_succ_of_lt (below k hk)
        · exact List.mem_singleton.mp hk ▸ Nat.lt_succ_self n

/-- The staging queue takes a version in the place of a WAITING entry, or at its tail (R11). -/
theorem length_stage {b : Nat} {v : Version} {d : Data} {source : Source} (l : List StagingEntry) :
    (stage b v d source l).length =
      if l.any (fun e => decide (e.block = b) && decide (e.state = .waiting)) then l.length
      else l.length + 1 := by
  induction l with
  | nil => rfl
  | cons e rest ih =>
    unfold stage
    split
    · rename_i here
      simp [here]
    · rename_i other
      have skip : (decide (e.block = b) && decide (e.state = .waiting)) = false := by simpa using other
      rw [List.length_cons, ih, List.any_cons, skip, Bool.false_or]
      split <;> rfl

/-! ## The tables of entries and the completion queue -/

section
variable {β : Type} {n : Nat} {P Q : Fin n → Bool} {g h : Fin n → β} {i : Fin n}

/-- One more index is listed, and nothing else changes. -/
theorem filter_map_perm_cons (out : P i = false) (listed : Q i = true)
    (others : ∀ j, j ≠ i → Q j = P j ∧ h j = g j) :
    (((List.finRange n).filter Q).map h).Perm (h i :: ((List.finRange n).filter P).map g) := by
  have perm : ((List.finRange n).filter Q).Perm (i :: (List.finRange n).filter P) := by
    refine (List.perm_ext_iff_of_nodup ((List.nodup_finRange n).filter _) ?_).mpr fun j => ?_
    · refine List.nodup_cons.mpr ⟨by simp [out], (List.nodup_finRange n).filter _⟩
    · by_cases same : j = i
      · simp [same, listed]
      · simp [same, (others j same).1]
  refine (perm.map h).trans (.of_eq ?_)
  rw [List.map_cons]
  refine congrArg _ (List.map_congr_left fun j hj => (others j ?_).2)
  rintro rfl
  simp [out] at hj

theorem filter_map_sublist (fewer : ∀ j, Q j = true → P j = true ∧ h j = g j) :
    (((List.finRange n).filter Q).map h).Sublist (((List.finRange n).filter P).map g) := by
  have same : ((List.finRange n).filter Q).map h = ((List.finRange n).filter Q).map g :=
    List.map_congr_left fun j hj => (fewer j (List.mem_filter.mp hj).2).2
  rw [same]
  exact (List.monotone_filter_right _ fun j hj => (fewer j hj).1).map g

theorem filter_map_congr (same : ∀ j, Q j = P j) (value : ∀ j, P j = true → h j = g j) :
    ((List.finRange n).filter Q).map h = ((List.finRange n).filter P).map g := by
  rw [List.filter_congr fun j _ => same j]
  exact List.map_congr_left fun j hj => value j (List.mem_filter.mp hj).2

end

/-- What the tables and the completion queue keep (R122, R182, R183). -/
structure State.Accounts (s : State) : Prop where
  records : (s.client.completions.map CompletionRecord.key).Perm s.finishedKeys
  tags    : s.occupiedTags.Nodup
  fixed   : s.client.HoldsHead

section
variable {s t : State}

theorem State.length_finishedKeys (s : State) : s.finishedKeys.length ≤ 12 := by
  have proposals := List.length_filter_le
    (fun i => decide ((s.proposal i).state = .finished)) (List.finRange 8)
  have reads := List.length_filter_le
    (fun i => decide ((s.readEntry i).state = .finished)) (List.finRange 4)
  simp only [List.length_finRange] at proposals reads
  simp only [State.finishedKeys, List.length_append, List.length_map]
  omega

theorem State.Accounts.completions (h : s.Accounts) : s.client.completions.length ≤ 12 := by
  have same := h.records.length_eq
  rw [List.length_map] at same
  exact same ▸ s.length_finishedKeys

/-- Entries that go on keep the finished ones and the tags. -/
theorem State.keys_of_continues (proposals : ∀ i, (t.proposal i).Continues (s.proposal i))
    (reads : ∀ i, (t.readEntry i).Continues (s.readEntry i)) :
    t.finishedKeys = s.finishedKeys ∧ t.occupiedTags = s.occupiedTags := by
  constructor
  · unfold State.finishedKeys
    refine congrArg₂ _ (filter_map_congr (fun i => ?_) fun i _ => ?_)
      (filter_map_congr (fun i => ?_) fun i _ => ?_)
    · simp [(proposals i).finished]
    · rw [(proposals i).tag]
    · simp [(reads i).finished]
    · rw [(reads i).tag]
  · unfold State.occupiedTags
    refine congrArg₂ _ (filter_map_congr (fun i => ?_) fun i _ => ?_)
      (filter_map_congr (fun i => ?_) fun i _ => ?_)
    · simp [(proposals i).free]
    · rw [(proposals i).tag]
    · simp [(reads i).free]
    · rw [(reads i).tag]

theorem State.keys_of_same (writes : t.writes = s.writes) (reads : t.reads = s.reads) :
    t.finishedKeys = s.finishedKeys ∧ t.occupiedTags = s.occupiedTags :=
  State.keys_of_continues
    (fun i => by simp only [State.proposal, writes]; exact .refl _)
    (fun i => by simp only [State.readEntry, reads]; exact .refl _)

theorem State.Accounts.of_keys (h : s.Accounts)
    (keys : t.finishedKeys = s.finishedKeys ∧ t.occupiedTags = s.occupiedTags)
    (completions : t.client.completions = s.client.completions)
    (fixed : s.client.HoldsHead → t.client.HoldsHead) : t.Accounts :=
  ⟨by rw [completions, keys.1]; exact h.records, keys.2 ▸ h.tags, fixed h.fixed⟩

/-- The record that a finishing entry places keeps the head of the queue where it is. -/
theorem ClientPort.HoldsHead.complete {c : ClientPort} (h : c.HoldsHead) (r : CompletionRecord) :
    ClientPort.HoldsHead { c with completions := c.completions ++ [r] } := by
  intro leading x opened
  have head := h leading x opened
  cases queue : c.completions with
  | nil => simp [queue] at head
  | cons a rest => simpa [queue] using head

theorem State.finishedKeys_setProposal {i : Fin 8} {p : Proposal}
    (open' : (s.proposal i).state ≠ .finished) (finished : p.state = .finished) :
    (s.setProposal i p).finishedKeys.Perm ((false, p.tag) :: s.finishedKeys) := by
  have more := filter_map_perm_cons (i := i)
    (P := fun i => decide ((s.proposal i).state = .finished))
    (Q := fun j => decide (((s.setProposal i p).proposal j).state = .finished))
    (g := fun i => (false, (s.proposal i).tag))
    (h := fun j => (false, ((s.setProposal i p).proposal j).tag))
    (by simp [open']) (by simp [State.proposal_setProposal, finished])
    (fun j hj => by simp [State.proposal_setProposal, hj.symm])
  rw [State.proposal_setProposal, if_pos rfl] at more
  exact more.append_right _

theorem State.finishedKeys_setRead {i : Fin 4} {e : ReadEntry}
    (open' : (s.readEntry i).state ≠ .finished) (finished : e.state = .finished) :
    (s.setRead i e).finishedKeys.Perm ((true, e.tag) :: s.finishedKeys) := by
  have more := filter_map_perm_cons (i := i)
    (P := fun i => decide ((s.readEntry i).state = .finished))
    (Q := fun j => decide (((s.setRead i e).readEntry j).state = .finished))
    (g := fun i => (true, (s.readEntry i).tag))
    (h := fun j => (true, ((s.setRead i e).readEntry j).tag))
    (by simp [open']) (by simp [State.readEntry_setRead, finished])
    (fun j hj => by simp [State.readEntry_setRead, hj.symm])
  rw [State.readEntry_setRead, if_pos rfl] at more
  exact (more.append_left _).trans List.perm_middle

theorem State.occupiedTags_setProposal {i : Fin 8} {p : Proposal}
    (free : (s.proposal i).state = .free) (occupied : p.state ≠ .free) :
    (s.setProposal i p).occupiedTags.Perm (p.tag :: s.occupiedTags) := by
  have more := filter_map_perm_cons (i := i)
    (P := fun i => decide ((s.proposal i).state ≠ .free))
    (Q := fun j => decide (((s.setProposal i p).proposal j).state ≠ .free))
    (g := fun i => (s.proposal i).tag) (h := fun j => ((s.setProposal i p).proposal j).tag)
    (by simp [free]) (by simp [State.proposal_setProposal, occupied])
    (fun j hj => by simp [State.proposal_setProposal, hj.symm])
  rw [State.proposal_setProposal, if_pos rfl] at more
  exact more.append_right _

theorem State.occupiedTags_setRead {i : Fin 4} {e : ReadEntry}
    (free : (s.readEntry i).state = .free) (occupied : e.state ≠ .free) :
    (s.setRead i e).occupiedTags.Perm (e.tag :: s.occupiedTags) := by
  have more := filter_map_perm_cons (i := i)
    (P := fun i => decide ((s.readEntry i).state ≠ .free))
    (Q := fun j => decide (((s.setRead i e).readEntry j).state ≠ .free))
    (g := fun i => (s.readEntry i).tag) (h := fun j => ((s.setRead i e).readEntry j).tag)
    (by simp [free]) (by simp [State.readEntry_setRead, occupied])
    (fun j hj => by simp [State.readEntry_setRead, hj.symm])
  rw [State.readEntry_setRead, if_pos rfl] at more
  exact (more.append_left _).trans List.perm_middle

/-- The tags in use are those of the occupied entries (R122). -/
theorem State.mem_occupiedTags (s : State) (tag : Byte) :
    tag ∈ s.occupiedTags ↔ s.tagInUse tag = true := by
  simp [State.occupiedTags, State.tagInUse]

/-- The record that a finishing entry places joins the records of the finished ones. -/
theorem State.Accounts.complete (h : s.Accounts) (r : CompletionRecord)
    (keys : t.finishedKeys.Perm (r.key :: s.finishedKeys))
    (tags : t.occupiedTags = s.occupiedTags)
    (client : t.client = { s.client with completions := s.client.completions ++ [r] }) :
    t.Accounts := by
  refine ⟨?_, tags ▸ h.tags, client ▸ h.fixed.complete r⟩
  rw [client]
  simp only [List.map_append, List.map_cons, List.map_nil]
  exact (List.perm_append_singleton _ _).trans ((h.records.cons _).trans keys.symm)

theorem State.occupiedTags_of_occupants (h : t.occupants = s.occupants) :
    t.occupiedTags = s.occupiedTags := by
  have proposals := fun i => Prod.mk.inj (congrFun (congrArg Prod.fst h) i)
  have reads := fun i => Prod.mk.inj (congrFun (congrArg Prod.snd h) i)
  refine congrArg₂ _ (filter_map_congr (fun i => ?_) fun i _ => (proposals i).2)
    (filter_map_congr (fun i => ?_) fun i _ => (reads i).2)
  · simpa using (proposals i).1
  · simpa using (reads i).1

/-- A running proposal that finishes places its record (R125, R182). -/
theorem State.Accounts.finishProposal (h : s.Accounts) (i : Fin 8) (r : Result)
    (w : Option Version) : (s.finishProposal i r w).Accounts := by
  have tags := State.occupiedTags_of_occupants (s.occupants_finishProposal i r w)
  by_cases running : (s.proposal i).running = true
  · rw [State.finishProposal_of_running r w running] at tags ⊢
    have unfinished : (s.proposal i).state ≠ .finished := fun finished => by
      simp [Proposal.running, finished] at running
    have finished := State.finishedKeys_setProposal (s := s) (p := { s.proposal i with
      state := .finished, result := some r, winning := w, window := none, frames := [] })
      unfinished rfl
    have kept := State.keys_of_same (s := s.setProposal i { s.proposal i with
      state := .finished, result := some r, winning := w, window := none, frames := [] })
      (t := ((s.setProposal i { s.proposal i with
        state := .finished, result := some r, winning := w, window := none
        frames := [] }).withdrawAll (s.proposal i).frames).complete
          (.write (s.proposal i).tag r (w.getD (s.proposal i).version) s.member.phase))
      (by simp) (by simp)
    refine h.complete (.write (s.proposal i).tag r (w.getD (s.proposal i).version) s.member.phase)
      ?_ tags (by simp)
    rw [kept.1]
    exact finished
  · unfold State.finishProposal
    rw [if_neg running]
    exact h

/-- A read that finishes leaves its result in the entry, withdraws its frames and its request, and
puts its record in the completion queue (R146). -/
theorem State.finishRead_of_running {i : Fin 4} (r : Result) (v : Version) (d : Data)
    (running : (s.readEntry i).running = true) :
    s.finishRead i r v d =
      (((s.setRead i { s.readEntry i with
          state := .finished, result := some r, queryWindow := none, fetchWindow := none
          backOff := none, frames := [], request := none }).dropClientRequest
            (s.readEntry i).request).withdrawAll (s.readEntry i).frames).complete
        (.read (s.readEntry i).tag r v s.member.phase d) :=
  if_pos running

/-- A running read that finishes places its record (R146, R182). -/
theorem State.Accounts.finishRead (h : s.Accounts) (i : Fin 4) (r : Result) (v : Version)
    (d : Data) : (s.finishRead i r v d).Accounts := by
  by_cases running : (s.readEntry i).running = true
  · rw [State.finishRead_of_running r v d running]
    have states : (s.readEntry i).state ≠ .free ∧ (s.readEntry i).state ≠ .finished := by
      simpa [ReadEntry.running] using running
    generalize ended : { s.readEntry i with
      state := .finished, result := some r, queryWindow := none, fetchWindow := none
      backOff := none, frames := [], request := none } = e
    have finished := State.finishedKeys_setRead (s := s) (e := e) states.2 (ended ▸ rfl)
    have kept := State.keys_of_same (s := s.setRead i e) (t := (((s.setRead i e).dropClientRequest
      (s.readEntry i).request).withdrawAll (s.readEntry i).frames).complete
        (.read (s.readEntry i).tag r v s.member.phase d)) (by simp) (by simp)
    have tags : (s.setRead i e).occupiedTags = s.occupiedTags := by
      refine State.occupiedTags_of_occupants (Prod.ext rfl (funext fun j => ?_))
      simp only [State.occupants, State.readEntry_setRead]
      split
      · subst ended
        subst j
        simp [states.1]
      · rfl
    refine h.complete (.read (s.readEntry i).tag r v s.member.phase d) ?_ (kept.2.trans tags)
      (by simp)
    rw [kept.1]
    subst ended
    exact finished
  · unfold State.finishRead
    rw [if_neg running]
    exact h

theorem State.finishedKeys_setProposal_of_open {i : Fin 8} {p : Proposal}
    (old : (s.proposal i).state ≠ .finished) (new : p.state ≠ .finished) :
    (s.setProposal i p).finishedKeys = s.finishedKeys := by
  refine congrArg₂ _ (filter_map_congr (fun j => ?_) fun j hj => ?_) rfl
  · rw [State.proposal_setProposal]
    split
    · subst j
      simp [old, new]
    · rfl
  · rw [State.proposal_setProposal, if_neg]
    rintro rfl
    simp [old] at hj

theorem State.finishedKeys_setRead_of_open {i : Fin 4} {e : ReadEntry}
    (old : (s.readEntry i).state ≠ .finished) (new : e.state ≠ .finished) :
    (s.setRead i e).finishedKeys = s.finishedKeys := by
  refine congrArg₂ _ rfl (filter_map_congr (fun j => ?_) fun j hj => ?_)
  · rw [State.readEntry_setRead]
    split
    · subst j
      simp [old, new]
    · rfl
  · rw [State.readEntry_setRead, if_neg]
    rintro rfl
    simp [old] at hj

/-- A FREE entry is occupied with a tag not in use (R122). -/
theorem State.Accounts.claim (h : s.Accounts) {tag : Byte} (unused : s.tagInUse tag = false)
    (keys : t.finishedKeys = s.finishedKeys) (tags : t.occupiedTags.Perm (tag :: s.occupiedTags))
    (client : t.client = s.client) : t.Accounts := by
  refine ⟨by rw [client, keys]; exact h.records, tags.nodup_iff.mpr ?_, client ▸ h.fixed⟩
  refine List.nodup_cons.mpr ⟨?_, h.tags⟩
  rw [State.mem_occupiedTags, unused]
  simp

theorem State.Accounts.claimProposal (h : s.Accounts) {i : Fin 8} {p : Proposal}
    (free : (s.proposal i).state = .free) (running : p.running = true)
    (unused : s.tagInUse p.tag = false) : (s.setProposal i p).Accounts := by
  have state : p.state ≠ .free ∧ p.state ≠ .finished := by
    simp only [Proposal.running, Bool.or_eq_true, decide_eq_true_eq] at running
    rcases running with state | state <;> simp [state]
  exact h.claim unused (State.finishedKeys_setProposal_of_open (by simp [free]) state.2)
    (State.occupiedTags_setProposal free state.1) rfl

theorem State.Accounts.claimRead (h : s.Accounts) {i : Fin 4} {e : ReadEntry}
    (free : (s.readEntry i).state = .free) (running : e.running = true)
    (unused : s.tagInUse e.tag = false) : (s.setRead i e).Accounts := by
  have state : e.state ≠ .free ∧ e.state ≠ .finished := by
    simpa [ReadEntry.running] using running
  exact h.claim unused (State.finishedKeys_setRead_of_open (by simp [free]) state.2)
    (State.occupiedTags_setRead free state.1) rfl

/-- Two occupied proposals of one tag are one (R122). -/
theorem State.proposal_unique (tags : s.occupiedTags.Nodup) {i j : Fin 8}
    (hi : (s.proposal i).state ≠ .free) (hj : (s.proposal j).state ≠ .free)
    (same : (s.proposal i).tag = (s.proposal j).tag) : i = j := by
  have proposals := (List.nodup_append.mp tags).1
  exact List.inj_on_of_nodup_map proposals (by simp [hi]) (by simp [hj]) same

theorem State.readEntry_unique (tags : s.occupiedTags.Nodup) {i j : Fin 4}
    (hi : (s.readEntry i).state ≠ .free) (hj : (s.readEntry j).state ≠ .free)
    (same : (s.readEntry i).tag = (s.readEntry j).tag) : i = j := by
  have reads := (List.nodup_append.mp tags).2.1
  exact List.inj_on_of_nodup_map reads (by simp [hi]) (by simp [hj]) same

theorem State.proposal_freeProposalEntry (s : State) (tag : Byte) (i : Fin 8) :
    (s.freeProposalEntry tag).proposal i =
      if (s.proposal i).state = .finished ∧ (s.proposal i).tag = tag then Proposal.empty
      else s.proposal i :=
  vector_get_map _ _ _

theorem State.readEntry_freeReadEntry (s : State) (tag : Byte) (i : Fin 4) :
    (s.freeReadEntry tag).readEntry i =
      if (s.readEntry i).state = .finished ∧ (s.readEntry i).tag = tag then ReadEntry.empty
      else s.readEntry i :=
  vector_get_map _ _ _

/-- The proposal whose record is taken becomes FREE, and is the only one with its tag (R136,
R183). -/
theorem State.finishedKeys_freeProposalEntry (tags : s.occupiedTags.Nodup) {tag : Byte}
    (listed : (false, tag) ∈ s.finishedKeys) :
    s.finishedKeys.Perm ((false, tag) :: (s.freeProposalEntry tag).finishedKeys) := by
  obtain ⟨i, finished, same⟩ : ∃ i, (s.proposal i).state = .finished ∧ (s.proposal i).tag = tag := by
    simpa [State.finishedKeys] using listed
  have more := filter_map_perm_cons (i := i)
    (P := fun j => decide (((s.freeProposalEntry tag).proposal j).state = .finished))
    (Q := fun i => decide ((s.proposal i).state = .finished))
    (g := fun j => (false, ((s.freeProposalEntry tag).proposal j).tag))
    (h := fun i => (false, (s.proposal i).tag))
    (by simp [State.proposal_freeProposalEntry, finished, same, Proposal.empty])
    (by simp [finished]) (fun j hj => ?_)
  · rw [same] at more
    exact more.append_right _
  · have other : ¬ ((s.proposal j).state = .finished ∧ (s.proposal j).tag = tag) := fun twin =>
      hj (State.proposal_unique tags (by simp [twin.1]) (by simp [finished])
        (twin.2.trans same.symm))
    simp only [State.proposal_freeProposalEntry, if_neg other, and_self]

theorem State.finishedKeys_freeReadEntry (tags : s.occupiedTags.Nodup) {tag : Byte}
    (listed : (true, tag) ∈ s.finishedKeys) :
    s.finishedKeys.Perm ((true, tag) :: (s.freeReadEntry tag).finishedKeys) := by
  obtain ⟨i, finished, same⟩ : ∃ i, (s.readEntry i).state = .finished ∧ (s.readEntry i).tag = tag := by
    simpa [State.finishedKeys] using listed
  have more := filter_map_perm_cons (i := i)
    (P := fun j => decide (((s.freeReadEntry tag).readEntry j).state = .finished))
    (Q := fun i => decide ((s.readEntry i).state = .finished))
    (g := fun j => (true, ((s.freeReadEntry tag).readEntry j).tag))
    (h := fun i => (true, (s.readEntry i).tag))
    (by simp [State.readEntry_freeReadEntry, finished, same, ReadEntry.empty])
    (by simp [finished]) (fun j hj => ?_)
  · rw [same] at more
    exact (more.append_left _).trans List.perm_middle
  · have other : ¬ ((s.readEntry j).state = .finished ∧ (s.readEntry j).tag = tag) := fun twin =>
      hj (State.readEntry_unique tags (by simp [twin.1]) (by simp [finished])
        (twin.2.trans same.symm))
    simp only [State.readEntry_freeReadEntry, if_neg other, and_self]

/-- An entry that becomes FREE gives up its tag, and no other does. -/
theorem State.occupiedTags_freeEntryOf (s : State) (r : CompletionRecord) :
    (s.freeEntryOf r).occupiedTags.Sublist s.occupiedTags := by
  cases r with
  | write tag =>
    refine List.Sublist.append (filter_map_sublist fun j hj => ?_) (.refl _)
    rw [State.freeEntryOf, State.proposal_freeProposalEntry] at hj ⊢
    split at hj
    · simp [Proposal.empty] at hj
    · rename_i other
      exact ⟨hj, by rw [if_neg other]⟩
  | read tag =>
    refine List.Sublist.append (.refl _) (filter_map_sublist fun j hj => ?_)
    rw [State.freeEntryOf, State.readEntry_freeReadEntry] at hj ⊢
    split at hj
    · simp [ReadEntry.empty] at hj
    · rename_i other
      exact ⟨hj, by rw [if_neg other]⟩

/-- The record at the head is taken, and its entry becomes FREE (R183). -/
theorem State.Accounts.remove (h : s.Accounts) (r : CompletionRecord)
    (head : s.client.completions.head? = some r) (closed : s.client.transaction = .closed) :
    (s.removeCompletion r).Accounts := by
  obtain ⟨rest, queue⟩ : ∃ rest, s.client.completions = r :: rest :=
    ⟨_, (List.cons_head?_tail head).symm⟩
  have records := h.records
  rw [queue, List.map_cons] at records
  have freed : s.finishedKeys.Perm (r.key :: (s.freeEntryOf r).finishedKeys) := by
    have listed : r.key ∈ s.finishedKeys := records.subset List.mem_cons_self
    cases r with
    | write tag => exact State.finishedKeys_freeProposalEntry h.tags listed
    | read tag => exact State.finishedKeys_freeReadEntry h.tags listed
  have client : (s.removeCompletion r).client = { s.client with
      completions := s.client.completions.drop 1 } := by cases r <;> rfl
  have keys : (s.removeCompletion r).finishedKeys = (s.freeEntryOf r).finishedKeys := by
    cases r <;> rfl
  have tags : (s.removeCompletion r).occupiedTags = (s.freeEntryOf r).occupiedTags := by
    cases r <;> rfl
  refine ⟨?_, tags ▸ h.tags.sublist (s.occupiedTags_freeEntryOf r), fun leading x opened => ?_⟩
  · rw [client, keys, queue]
    exact ((records.trans freed).cons_inv)
  · rw [client] at opened
    cases closed.symm.trans opened

end

/-! ## The units together -/

/-- The invariant, unit by unit. -/
structure State.Wf (s : State) : Prop where
  staging  : s.store.staging.length ≤ 16
  map      : mapWf s.store.map = true
  line     : s.line.Wf
  media    : s.media.Wf
  list     : s.repair.list.length ≤ 32
  serve    : s.repair.serveQueue.length ≤ 4
  events   : s.client.events.length ≤ 16
  accounts : s.Accounts

theorem State.inv_iff_wf (s : State) : s.Inv ↔ s.Wf :=
  ⟨fun h => ⟨h.staging, h.map, ⟨h.queue, h.waiting, h.ordered, h.beat⟩,
      ⟨h.scrub, h.passed, h.sectors, h.spares, h.scanning, h.idle⟩, h.repair, h.serve, h.events,
      ⟨h.records, h.tags, h.fixed⟩⟩,
    fun h => ⟨h.staging, h.line.queue, h.events, h.accounts.completions, h.media.scrub, h.list,
      h.serve, h.media.passed, h.line.waiting, h.line.ordered, h.line.beat, h.map,
      h.media.sectors, h.media.spares, h.media.scanning, h.media.idle, h.accounts.records,
      h.accounts.tags, h.accounts.fixed⟩⟩

section
variable {s t u : State}

theorem State.Accounts.of_units (h : t.Accounts) (client : u.client = t.client)
    (writes : u.writes = t.writes) (reads : u.reads = t.reads) : u.Accounts :=
  h.of_keys (State.keys_of_same writes reads) (by rw [client]) (client ▸ id)

/-- A move of the out-queue: the line controller stays in form, and the queues that the invariant
speaks of elsewhere are not touched. -/
theorem State.Wf.of_line (h : t.Wf) (line : u.line.Wf) (store : u.store = t.store)
    (media : u.media = t.media) (list : u.repair.list = t.repair.list)
    (serve : u.repair.serveQueue = t.repair.serveQueue) (client : u.client = t.client)
    (writes : u.writes = t.writes) (reads : u.reads = t.reads) : u.Wf :=
  ⟨by rw [store]; exact h.staging, by rw [store]; exact h.map, line, media ▸ h.media,
    list ▸ h.list, serve ▸ h.serve, by rw [client]; exact h.events,
    h.accounts.of_units client writes reads⟩

theorem State.Wf.onClient (h : t.Wf) (f : ClientPort → ClientPort)
    (continues : (f t.client).Continues t.client) : (t.onClient f).Wf :=
  { h with
    events := continues.events h.events
    accounts := h.accounts.of_keys ⟨rfl, rfl⟩ continues.completions continues.fixed }

theorem State.Wf.raise (h : t.Wf) (k : EventKind) (b : Subject) (d : Detail) : (t.raise k b d).Wf :=
  h.onClient _ (.raise _ k b d)

theorem State.Wf.setEntry (h : t.Wf) (b : Nat) (e : MapEntry) : (t.setEntry b e).Wf :=
  { h with
    staging := by simpa [State.setEntry] using h.staging
    map := t.mapWf_setEntry b e h.map
    accounts := h.accounts.of_units rfl rfl rfl }

theorem State.Wf.onMedia (h : t.Wf) (f : MediaController → MediaController)
    (media : (f t.media).Wf) : (t.onMedia f).Wf :=
  { h with media := media, accounts := h.accounts.of_units rfl rfl rfl }

theorem State.Wf.appendScrub (h : t.Wf) (b : Nat) : (t.appendScrub b).Wf := by
  unfold State.appendScrub
  split
  · rename_i room
    refine h.onMedia _ { h.media with scrub := ?_ }
    simpa [Config.scrubCapacity] using room
  · exact h.raise ..

theorem State.Wf.handToRepair (h : t.Wf) (b : Nat) : (t.handToRepair b).Wf := by
  unfold State.handToRepair
  split
  · rename_i room
    exact { h with
      list := by simpa [Config.repairCapacity] using room
      accounts := h.accounts.of_units rfl rfl rfl }
  · exact h.raise ..

theorem State.Wf.loseBlock (h : t.Wf) (b : Nat) (sector : Option Nat) (how : LostBy) :
    (t.loseBlock b sector how).Wf :=
  ((h.setEntry b _).raise ..).onMedia _
    { (h.media) with scrub := (List.length_filter_le ..).trans h.media.scrub }

theorem State.Wf.freePort (h : t.Wf) : t.freePort.Wf :=
  h.onMedia _ { h.media with scanning := fun n hp => (by cases hp), idle := fun _ => ⟨rfl, rfl⟩ }

theorem State.Wf.applyWrite (h : t.Wf) (op : WriteOp) (written : Bool) (final : Option Nat) :
    (t.applyWrite op written final).Wf := by
  unfold State.applyWrite
  split
  · exact h
  · rename_i e rest queue
    have shorter : rest.length ≤ 16 := by
      have full := h.staging
      rw [queue, List.length_cons] at full
      exact Nat.le_of_succ_le full
    have left : (t.onStore fun st => { st with staging := rest }).Wf :=
      { h with staging := shorter, accounts := h.accounts.of_units rfl rfl rfl }
    dsimp only
    split
    · exact left.setEntry _ _
    · unfold State.writeFailed
      dsimp only
      split
      · exact left.setEntry _ _
      · split
        · exact left.loseBlock _ _ _
        · exact (left.loseBlock _ _ _).handToRepair _

/-- An acceptance finds room in the staging queue (R11). -/
theorem State.Wf.intake (h : t.Wf) (b : Nat) (v : Version) (d : Data) (source : Source)
    (room : t.hasWaiting b = true ∨ t.store.staging.length < 16) : (t.intake b v d source).Wf := by
  have length : (t.take b v d source).store.staging.length ≤ 16 := by
    have full := h.staging
    rw [State.take_staging, length_stage]
    split
    · exact full
    · rename_i waits
      have := room.resolve_left waits
      omega
  have taken : (t.take b v d source).Wf :=
    { h.setEntry b _ with staging := length, accounts := h.accounts.of_units rfl rfl rfl }
  have unlisted : ((t.take b v d source).unlistScrub b).Wf :=
    taken.onMedia _
      { taken.media with scrub := (List.length_filter_le ..).trans taken.media.scrub }
  exact { unlisted with
    list := (List.length_filter_le ..).trans unlisted.list
    accounts := unlisted.accounts.of_units rfl rfl rfl }

end

end Sys2Proof.Machine
end

section
/-! PROOF. The invariant under the resolution of mount, under every move and under every step. -/

namespace Sys2Proof.Machine

/-! ## The resolution does not look at the port -/

section
variable (s : State)

theorem State.freePort_appendScrub (b : Nat) :
    s.freePort.appendScrub b = (s.appendScrub b).freePort := by
  unfold State.appendScrub
  rw [show s.freePort.media.scrub = s.media.scrub from rfl]
  split <;> rfl

theorem State.freePort_handToRepair (b : Nat) :
    s.freePort.handToRepair b = (s.handToRepair b).freePort := by
  unfold State.handToRepair
  rw [show s.freePort.repair = s.repair from rfl]
  split <;> rfl

theorem State.freePort_retireHome (b : Nat) (home : Finding) :
    s.freePort.retireHome b home = (s.retireHome b home).freePort := by
  unfold State.retireHome
  dsimp only
  split <;> rfl

theorem State.freePort_resolveClean (b : Nat) (home : Finding) (c : Candidate) :
    s.freePort.resolveClean b home c = (s.resolveClean b home c).freePort := by
  have set : ∀ e, s.freePort.setEntry b e = (s.setEntry b e).freePort := fun _ => rfl
  unfold State.resolveClean
  dsimp only
  rw [set]
  split <;> split <;> simp only [State.freePort_retireHome, State.freePort_appendScrub]

theorem State.freePort_resolveLost (b : Nat) (sector : Option Nat) :
    s.freePort.resolveLost b sector = (s.resolveLost b sector).freePort :=
  State.freePort_handToRepair ((s.setEntry b _).raise ..) b

theorem State.freePort_resolveBlock (spares : List (Nat × Candidate)) (b : Nat) (home : Finding) :
    s.freePort.resolveBlock spares b home = (s.resolveBlock spares b home).freePort := by
  unfold State.resolveBlock
  split
  · exact s.freePort_resolveClean b home _
  · split
    · rfl
    · exact (s.retire b).freePort_resolveLost b none
    · exact s.freePort_resolveLost b _
    · exact s.freePort_resolveLost b _

theorem State.freePort_placeSpare (n : Nat) (f : Finding) :
    s.freePort.placeSpare n f = (s.placeSpare n f).freePort := by
  cases f with
  | copy b v k =>
    simp only [State.placeSpare]
    rw [show s.freePort.entryOf b = s.entryOf b from rfl]
    split <;> rfl
  | blank | mark | unreadable => rfl

end

theorem State.freePort_resolveBlocks (spares : List (Nat × Candidate)) (homes : List Finding)
    (b : Nat) (s : State) : State.resolveBlocks spares b homes s.freePort =
      (State.resolveBlocks spares b homes s).freePort := by
  induction homes generalizing b s with
  | nil => rfl
  | cons f rest ih => rw [State.resolveBlocks, State.freePort_resolveBlock, ih, State.resolveBlocks]

theorem State.freePort_placeSpares (fs : List Finding) (n : Nat) (s : State) :
    State.placeSpares n fs s.freePort = (State.placeSpares n fs s).freePort := by
  induction fs generalizing n s with
  | nil => rfl
  | cons f rest ih => rw [State.placeSpares, State.freePort_placeSpare, ih, State.placeSpares]

theorem State.freePort_resolve (s : State) (findings : List Finding) :
    s.freePort.resolve findings = (s.resolve findings).freePort := by
  unfold State.resolve
  dsimp only
  rw [State.freePort_resolveBlocks, State.freePort_placeSpares]
  rfl

/-! ## The resolution -/

section
variable {s t : State}

theorem State.Wf.retire (h : s.Wf) (b : Nat) : (s.retire b).Wf := h.onMedia _ { h.media with }

theorem State.Wf.retireHome (h : s.Wf) (b : Nat) (home : Finding) : (s.retireHome b home).Wf := by
  unfold State.retireHome
  dsimp only
  split
  · exact h.retire b
  · exact { h.retire b with accounts := (h.retire b).accounts.of_units rfl rfl rfl }

theorem State.Wf.resolveClean (h : s.Wf) (b : Nat) (home : Finding) (c : Candidate) :
    (s.resolveClean b home c).Wf := by
  have set := h.setEntry b ⟨some c.sector, c.version, c.version, .clean⟩
  unfold State.resolveClean
  dsimp only
  split <;> split
  · exact (set.retireHome b home).appendScrub b
  · exact set.appendScrub b
  · exact set.retireHome b home
  · exact set

theorem State.Wf.resolveLost (h : s.Wf) (b : Nat) (sector : Option Nat) :
    (s.resolveLost b sector).Wf := ((h.setEntry b _).raise ..).handToRepair b

theorem State.Wf.resolveBlock (h : s.Wf) (spares : List (Nat × Candidate)) (b : Nat)
    (home : Finding) : (s.resolveBlock spares b home).Wf := by
  unfold State.resolveBlock
  split
  · exact h.resolveClean b home _
  · split
    · exact h
    · exact (h.retire b).resolveLost b none
    · exact h.resolveLost b _
    · exact h.resolveLost b _

theorem State.Wf.resolveBlocks (spares : List (Nat × Candidate)) (homes : List Finding) (b : Nat)
    (h : s.Wf) : (State.resolveBlocks spares b homes s).Wf := by
  induction homes generalizing b s with
  | nil => exact h
  | cons f rest ih => exact ih (b + 1) (h.resolveBlock spares b f)

theorem State.resolveBlock_port (s : State) (spares : List (Nat × Candidate)) (b : Nat)
    (home : Finding) : (s.resolveBlock spares b home).media.port = s.media.port ∧
      (s.resolveBlock spares b home).media.spares = s.media.spares := by
  have retired : ∀ u : State, (u.retireHome b home).media.spares = u.media.spares := fun u => by
    unfold State.retireHome
    dsimp only
    split <;> simp [State.retire]
  unfold State.resolveBlock State.resolveClean State.resolveLost
  dsimp only
  (repeat' split) <;> simp [State.retire, State.retireHome_view, retired]

theorem State.resolveBlocks_port (spares : List (Nat × Candidate)) (homes : List Finding) (b : Nat)
    (s : State) : (State.resolveBlocks spares b homes s).media.port = s.media.port ∧
      (State.resolveBlocks spares b homes s).media.spares = s.media.spares := by
  induction homes generalizing b s with
  | nil => exact ⟨rfl, rfl⟩
  | cons f rest ih =>
    obtain ⟨port, pool⟩ := ih (b + 1) (s.resolveBlock spares b f)
    obtain ⟨port', pool'⟩ := s.resolveBlock_port spares b f
    exact ⟨port.trans port', pool.trans pool'⟩

/-- A move of the pool alone, at a free port. -/
theorem State.Wf.onSpares (h : s.Wf) (free : s.media.port = none) (spares : List Nat)
    (ordered : spares.Pairwise (· < ·)) :
    (s.onMedia fun m => { m with spares := spares }).Wf :=
  h.onMedia _ { h.media with
    spares := ordered, scanning := fun n hp => by cases free.symm.trans hp }

/-- What the placing of a spare changes: the pool and the retired set. -/
theorem State.placeSpares_eq (fs : List Finding) (n : Nat) (s : State) :
    ∃ spares retired, State.placeSpares n fs s =
      s.onMedia fun m => { m with spares := spares, retired := retired } := by
  induction fs generalizing n s with
  | nil => exact ⟨s.media.spares, s.media.retired, rfl⟩
  | cons f rest ih =>
    have one : ∃ spares retired, s.placeSpare n f =
        s.onMedia fun m => { m with spares := spares, retired := retired } := by
      cases f with
      | blank => exact ⟨s.media.spares ++ [n], s.media.retired, rfl⟩
      | mark | unreadable => exact ⟨s.media.spares, addSorted s.media.retired n, rfl⟩
      | copy b v k =>
        simp only [State.placeSpare]
        split
        · exact ⟨s.media.spares, s.media.retired, rfl⟩
        · exact ⟨s.media.spares ++ [n], s.media.retired, rfl⟩
    obtain ⟨spares, retired, first⟩ := one
    obtain ⟨spares', retired', later⟩ := ih (n + 1) (s.placeSpare n f)
    exact ⟨spares', retired', by rw [State.placeSpares, later, first]; rfl⟩

/-- The resolution at a free port with an empty pool (R64 to R69). -/
theorem State.Wf.resolve (h : s.Wf) (free : s.media.port = none) (empty : s.media.spares = [])
    (findings : List Finding) : (s.resolve findings).Wf := by
  have blocks := State.Wf.resolveBlocks (copiesFrom Config.firstSpare (findings.drop Config.blocks))
    (findings.take Config.blocks) 0 h
  obtain ⟨port, pool⟩ := State.resolveBlocks_port
    (copiesFrom Config.firstSpare (findings.drop Config.blocks)) (findings.take Config.blocks) 0 s
  have ordered := State.placeSpares_spares Config.firstSpare (findings.drop Config.blocks)
    (State.resolveBlocks (copiesFrom Config.firstSpare (findings.drop Config.blocks)) 0
      (findings.take Config.blocks) s) (by rw [pool, empty]; exact .nil)
    (by rw [pool, empty]; simp)
  obtain ⟨spares, retired, placed⟩ := State.placeSpares_eq (findings.drop Config.blocks)
    Config.firstSpare (State.resolveBlocks
      (copiesFrom Config.firstSpare (findings.drop Config.blocks)) 0 (findings.take Config.blocks) s)
  rw [placed] at ordered
  have wf : (State.placeSpares Config.firstSpare (findings.drop Config.blocks)
      (State.resolveBlocks (copiesFrom Config.firstSpare (findings.drop Config.blocks)) 0
        (findings.take Config.blocks) s)).Wf := by
    rw [placed]
    exact blocks.onMedia _ { blocks.media with
      spares := ordered, scanning := fun n hp => by cases (port.trans free).symm.trans hp }
  exact { wf with accounts := wf.accounts.of_units rfl rfl rfl }

theorem State.Wf.usePort (h : s.Wf) (op : MediaOp) (steps : List MediaStep)
    (scan : ∀ n, op = .scanRead n → s.media.spares = []) : (s.usePort op steps).Wf :=
  h.onMedia _ (h.media.use op steps scan)

/-! ## Every move -/

theorem State.Wf.complete (h : s.Wf) (r : CompletionRecord) (accounts : (s.complete r).Accounts) :
    (s.complete r).Wf :=
  { h with accounts := accounts }

theorem State.Wf.finishProposal (h : s.Wf) (i : Fin 8) (r : Result) (w : Option Version) :
    (s.finishProposal i r w).Wf := by
  have line : (s.finishProposal i r w).line.Wf := by
    unfold State.finishProposal
    dsimp only
    split
    · exact State.withdrawAll_wf (s := s.setProposal i _) h.line _
    · exact h.line
  exact ⟨by simpa using h.staging, by simpa using h.map, line, by simpa using h.media,
    by simpa using h.list, by simpa using h.serve, by simpa using h.events,
    h.accounts.finishProposal i r w⟩

theorem State.finishRead_media (s : State) (i : Fin 4) (r : Result) (v : Version) (d : Data) :
    ∃ requests, (s.finishRead i r v d).media = { s.media with clientRequests := requests } := by
  unfold State.finishRead
  dsimp only
  split
  · exact ⟨_, by simp [State.dropClientRequest]; rfl⟩
  · exact ⟨s.media.clientRequests, rfl⟩

theorem State.Wf.finishRead (h : s.Wf) (i : Fin 4) (r : Result) (v : Version) (d : Data) :
    (s.finishRead i r v d).Wf := by
  have line : (s.finishRead i r v d).line.Wf := by
    unfold State.finishRead
    dsimp only
    split
    · exact State.withdrawAll_wf (s := (s.setRead i _).dropClientRequest _) h.line _
    · exact h.line
  have media : (s.finishRead i r v d).media.Wf := by
    obtain ⟨requests, same⟩ := s.finishRead_media i r v d
    rw [same]
    exact { h.media with }
  exact ⟨by simpa using h.staging, by simpa using h.map, line, media, by simpa using h.list,
    by simpa using h.serve, by simpa using h.events, h.accounts.finishRead i r v d⟩

theorem State.Wf.startHead (h : s.Wf) {e : StagingEntry} {rest : List StagingEntry}
    (queue : s.store.staging = e :: rest) : (s.startHead e rest).Wf := by
  have length : rest.length + 1 ≤ 16 := by
    have full := h.staging
    rwa [queue, List.length_cons] at full
  have taken : (s.onStore fun st => { st with
      staging := { e with state := .writing } :: rest }).Wf :=
    { h with staging := length, accounts := h.accounts.of_units rfl rfl rfl }
  exact taken.onMedia _ { taken.media with passed := Nat.zero_le 2 }

/-- A run of moves keeps the invariant. -/
theorem State.Runs.wf {claim : Option Version} (hs : s.Wf) (h : s.Runs claim t) : t.Wf := by
  have beats : ∀ f, f.isHeartbeat = true ∨ s.line.replacement = some f → f.isHeartbeat = true :=
    fun f hf => hf.elim id (hs.line.beat f)
  induction h with
  | refl => exact hs
  | control f _ ih | member f _ _ ih | mount f _ ih =>
    exact { ih with accounts := ih.accounts.of_units rfl rfl rfl }
  | client f h _ ih => exact ih.onClient f h
  | remove r h closed _ ih =>
    have accounts := ih.accounts.remove r (h hs.accounts.fixed) closed
    cases r <;> exact { ih with accounts := accounts }
  | note f h _ ih =>
    obtain ⟨queue, waiting, replacement⟩ := h
    refine ih.of_line (ih.line.of_same_classes (by rw [State.onLine_line, queue])
      (by rw [State.onLine_line, waiting]) fun g hg => ?_) rfl rfl rfl rfl rfl rfl rfl
    rcases replacement with same | taken
    · exact ih.line.beat g (same.symm.trans hg)
    · cases taken.symm.trans hg
  | restate g h _ ih =>
    refine ih.of_line (ih.line.of_same_classes ?_ rfl ih.line.beat) rfl rfl rfl rfl rfl rfl rfl
    simp [h]
  | replace id f h _ ih =>
    exact ih.of_line (State.replaceFrame_wf ih.line id (beats f h)) rfl rfl rfl rfl rfl rfl rfl
  | beat f h _ ih =>
    exact ih.of_line (State.placeHeartbeat_wf ih.line (beats f h)) (by simp) (by simp) (by simp)
      (by simp) (by simp) (by simp) (by simp)
  | place id f _ ih =>
    exact ih.of_line (State.place_wf ih.line id f) (by simp) (by simp) (by simp)
      (by simp) (by simp) (by simp) (by simp)
  | leave id _ ih =>
    exact ih.of_line (State.leaveQueue_wf ih.line id) (by simp) (by simp) (by simp)
      (by simp) (by simp) (by simp) (by simp)
  | withdraw id _ ih =>
    exact ih.of_line (State.withdraw_wf ih.line id) (by simp) (by simp) (by simp)
      (by simp) (by simp) (by simp) (by simp)
  | withdrawAll ids _ ih =>
    exact ih.of_line (State.withdrawAll_wf ih.line ids) (by simp) (by simp) (by simp)
      (by simp) (by simp) (by simp) (by simp)
  | writes f h _ ih =>
    exact { ih with
      accounts := ih.accounts.of_keys (State.keys_of_continues h fun _ => .refl _) rfl id }
  | reads f h _ ih =>
    exact { ih with
      accounts := ih.accounts.of_keys (State.keys_of_continues (fun _ => .refl _) h) rfl id }
  | finishProposal i r w _ ih => exact ih.finishProposal i r w
  | finishRead i r v d _ ih => exact ih.finishRead i r v d
  | claimProposal i p free running unused _ ih =>
    exact { ih with accounts := ih.accounts.claimProposal free running unused }
  | claimRead i e free running unused _ ih =>
    exact { ih with accounts := ih.accounts.claimRead free running unused }
  | repair f list queue _ ih =>
    exact { ih with
      list := list.length_le.trans ih.list
      serve := queue ih.serve
      accounts := ih.accounts.of_units rfl rfl rfl }
  | requests f h _ ih => exact ih.onMedia f (h ▸ { ih.media with })
  | learn seq _ ih => exact { ih with accounts := ih.accounts.of_units rfl rfl rfl }
  | intake b v d source _ room _ _ ih => exact ih.intake b v d source room
  | appendScrub b _ _ _ ih => exact ih.appendScrub b
  | lostByRead b _ _ _ ih => exact (ih.loseBlock _ _ _).handToRepair b
  | applyWrite op written final _ _ ih => exact ih.freePort.applyWrite op written final
  | freePort _ ih => exact ih.freePort
  | goOn op next steps h _ _ _ ih => exact ih.usePort _ _ fun n hn => by cases hn
  | answer steps h _ ih =>
    obtain ⟨op, port⟩ := Option.ne_none_iff_exists'.mp fun free => h (ih.media.idle free).1
    exact ih.onMedia _ (ih.media.run port steps)
  | window f h _ ih =>
    refine ih.onMedia _ { ih.media with idle := fun free => ?_ }
    obtain ⟨steps, window⟩ := ih.media.idle free
    exact ⟨steps, (congrArg f window).trans h⟩
  | retire n _ ih => exact ih.retire n
  | pool spares exhausted h _ ih =>
    refine ih.onMedia _ { ih.media with spares := ih.media.spares.sublist h, scanning := ?_ }
    intro n port
    have empty := ih.media.scanning n port
    rw [empty] at h
    exact List.sublist_nil.mp h
  | startHead e rest op steps h _ _ _ _ _ ih => exact (ih.startHead h).usePort _ _ (by simp)
  | passOver _ ih =>
    unfold State.passOver
    split
    · exact ih.onMedia _ { ih.media with passed := Nat.min_le_left 2 _ }
    · exact ih
  | readSector r n v free _ ih => exact ih.usePort _ _ fun n hn => by cases hn
  | @readScrub t b rest n v h _ _ ih =>
    have taken : (t.onMedia fun m => { m with scrub := rest }).Wf := by
      refine ih.onMedia _ { ih.media with scrub := ?_ }
      have full := ih.media.scrub
      rw [h, List.length_cons] at full
      exact Nat.le_of_succ_le full
    exact taken.usePort _ _ (by simp)
  | scanNext n h _ ih => exact ih.usePort _ _ fun _ _ => ih.media.scanning n h
  | @resolveMark t findings n k h _ ih =>
    have resolved := ih.freePort.resolve rfl (ih.media.scanning n h) findings
    rw [State.freePort_resolve] at resolved
    exact resolved.usePort (.retireMark k) [.mark k] fun _ hn => by cases hn
  | resolveEnd findings n h _ ih =>
    have resolved := ih.freePort.resolve rfl (ih.media.scanning n h) findings
    rwa [State.freePort_resolve] at resolved
  | markNext n k h _ ih => exact ih.usePort _ _ fun n hn => by cases hn

/-! ## Every step -/

theorem Transaction.afterReset_ne_opened (held : Bool) (t : Transaction) (leading : List Byte)
    (r : Response) : t.afterReset held ≠ .opened leading r := by
  cases t <;> cases held <;> simp [Transaction.afterReset]

theorem State.Resets.wf (h : s.Resets t) (sectors : sectorsWf s.media.sectors = true) : t.Wf := by
  have media : (MediaController.reset s.media.sectors).Wf :=
    ⟨Nat.zero_le _, Nat.zero_le _, sectors, .nil, fun _ hp => (by cases hp),
      fun _ => ⟨rfl, rfl⟩⟩
  have line : LineController.reset.Wf :=
    ⟨Nat.zero_le _, fun some_wait => absurd rfl some_wait, rfl, fun _ hf => (by cases hf)⟩
  have cleared : ∀ control, (s.toReset control).Wf := fun control => by
    refine ⟨Nat.zero_le _, rfl, line, media, Nat.zero_le _, Nat.zero_le _, Nat.zero_le _, ?_⟩
    have keys := State.keys_of_same (s := State.reset) (t := s.toReset control) rfl rfl
    have finished : State.reset.finishedKeys = [] := by decide
    have occupied : State.reset.occupiedTags = [] := by decide
    refine ⟨?_, ?_, fun leading r opened => ?_⟩
    · rw [keys.1, finished]
      exact .nil
    · rw [keys.2, occupied]
      exact .nil
    · exact absurd opened (Transaction.afterReset_ne_opened _ _ _ _)
  cases h with
  | held control => exact cleared control
  | released straps => exact (cleared _).usePort _ _ fun _ _ => rfl

end

/-- Settles O58: every move and every reset keeps each unit's part of the invariant. -/
theorem stepKeepsTheInvariant : Obligations.StepKeepsTheInvariant := by
  intro s t hs h
  rw [State.inv_iff_wf] at hs ⊢
  refine step_keeps (P := State.Wf) (fun s u claim hs runs => ?_) (fun s t hs reset =>
      reset.wf hs.media.sectors)
    (fun s rest hs => { hs with accounts := hs.accounts.of_units rfl rfl rfl }) hs h
  have kept := runs.wf hs
  cases claim with
  | none => exact kept
  | some v => exact { kept with accounts := kept.accounts.of_units rfl rfl rfl }

/-- Settles O57: the machine after reset has every queue empty and nothing listed. -/
theorem resetMeetsTheInvariants : Obligations.ResetMeetsTheInvariants := by
  refine ⟨(State.inv_iff_wf _).mpr ?_, ?_, fun _ => Nat.zero_le _, fun e he => by cases he⟩
  · exact (State.Resets.released (s := State.reset) ⟨0#3, 0#3, 0#2⟩).wf rfl
  · exact .empty rfl rfl rfl rfl fun op hp => ⟨(Option.some.inj hp).symm, rfl⟩

end Sys2Proof.Machine
end

section
/-! PROOF. Every command: a step takes the front one, every command goes on and keeps the queue of
those that wait, and versions are ordered (O1, O2, O22). -/

namespace Sys2Proof.Machine

/-- Settles O1: by the two cases of the queue. -/
theorem stepTakesTheFrontCommand : Obligations.StepTakesTheFrontCommand := by
  refine ⟨fun c rest s h => ?_, fun s h => ?_⟩
  · simp only [step, h]
    rfl
  · simp only [step, h]

/-- No command stops the machine or is refused. -/
theorem exec_next (c : Instr) (s : State) : ∃ t, exec c s = .next t := by
  cases c <;> exact ⟨_, rfl⟩

/-! ## The queue of waiting commands -/

theorem State.applyWrite_pending (s : State) (op : WriteOp) (written : Bool)
    (final : Option Nat) : (s.applyWrite op written final).pending = s.pending := by
  unfold State.applyWrite
  dsimp only
  split
  · rfl
  · split
    · simp [State.written, State.setEntry]
    · unfold State.writeFailed
      dsimp only
      split
      · simp [State.setEntry]
      · split <;> simp

theorem State.resolveBlock_pending (s : State) (spares : List (Nat × Candidate)) (b : Nat)
    (home : Finding) : (s.resolveBlock spares b home).pending = s.pending := by
  unfold State.resolveBlock State.resolveClean State.resolveLost State.retireHome
  dsimp only
  repeat' split
  all_goals simp [State.setEntry]

theorem State.resolveBlocks_pending (spares : List (Nat × Candidate)) (b : Nat)
    (homes : List Finding) (s : State) :
    (State.resolveBlocks spares b homes s).pending = s.pending := by
  induction homes generalizing b s with
  | nil => rfl
  | cons home rest ih => exact (ih _ _).trans (s.resolveBlock_pending spares b home)

theorem State.placeSpares_pending (n : Nat) (findings : List Finding) (s : State) :
    (State.placeSpares n findings s).pending = s.pending := by
  induction findings generalizing n s with
  | nil => rfl
  | cons f rest ih =>
    refine (ih _ _).trans ?_
    unfold State.placeSpare
    repeat' split
    all_goals rfl

theorem State.resolve_pending (s : State) (findings : List Finding) :
    (s.resolve findings).pending = s.pending :=
  (State.placeSpares_pending _ _ _).trans (State.resolveBlocks_pending _ _ _ s)

/-- Every move leaves the queue of waiting commands alone. -/
theorem State.Runs.pending {s t : State} {claim : Option Version} (h : s.Runs claim t) :
    t.pending = s.pending := by
  induction h with
  | refl => rfl
  | applyWrite op written final _ _ ih => exact (State.applyWrite_pending _ _ _ _).trans ih
  | resolveMark findings n k _ _ ih => exact (State.resolve_pending _ _).trans ih
  | resolveEnd findings n _ _ ih => exact (State.resolve_pending _ _).trans ih
  | remove r _ _ _ ih =>
    refine Eq.trans ?_ ih
    cases r <;> rfl
  | _ => simp_all [State.replaceFrame, State.intake, State.unlistScrub]

theorem State.Goes.pending {s t : State} (h : s.Goes t) : t.pending = s.pending := by
  obtain ⟨claim, u, first, rest⟩ := h
  induction rest with
  | refl => cases claim <;> exact first.pending
  | tail _ run ih => exact run.pending.trans ih

/-- Settles O2: what a command makes of a state comes from it by moves, which leave the queue alone,
or is a reset, which leaves it too. -/
theorem everyCommandGoesOn : Obligations.EveryCommandGoesOn := by
  intro c s
  obtain ⟨t, h⟩ := exec_next c s
  refine ⟨t, h, ?_⟩
  rcases exec_goes c s t h with went | reset
  · exact went.pending
  · cases reset <;> rfl

/-! ## The order of versions (R1) -/

theorem newer_iff (a b : Version) :
    newer a b = true ↔ b.seq < a.seq ∨ a.seq = b.seq ∧ b.origin < a.origin := by
  simp [newer]

/-- The order read as one of numbers. -/
theorem newer_iff_toNat (a b : Version) :
    newer a b = true ↔ b.seq.toNat < a.seq.toNat ∨
      a.seq.toNat = b.seq.toNat ∧ b.origin.val < a.origin.val := by
  rw [newer_iff, BitVec.lt_def, ← BitVec.toNat_inj, Fin.lt_def]

theorem newer_false_iff_toNat (a b : Version) :
    newer a b = false ↔ a.seq.toNat < b.seq.toNat ∨
      a.seq.toNat = b.seq.toNat ∧ a.origin.val ≤ b.origin.val := by
  rw [← Bool.not_eq_true, newer_iff_toNat]
  omega

theorem Version.eq_of_not_newer {a b : Version} (hab : newer a b = false)
    (hba : newer b a = false) : a = b := by
  rw [newer_false_iff_toNat] at hab hba
  have seq : a.seq = b.seq := BitVec.eq_of_toNat_eq (by omega)
  have origin : a.origin = b.origin := Fin.ext (by omega)
  cases a; cases b; simp_all

/-- No two versions are each newer than the other. -/
theorem newer_asymm {a b : Version} (h : newer a b = true) : newer b a = false := by
  rw [newer_iff_toNat] at h
  rw [newer_false_iff_toNat]
  omega

theorem newer_trans {a b c : Version} (hab : newer a b = true) (hbc : newer b c = true) :
    newer a c = true := by
  rw [newer_iff_toNat] at *
  omega

theorem newer_nil_of_written (v : Version) (h : v.seq ≠ 0#32) : newer v .nil = true :=
  (newer_iff_toNat v .nil).mpr
    (.inl (Nat.pos_of_ne_zero fun zero => h (BitVec.eq_of_toNat_eq zero)))

/-- Settles O22: by the comparison of sequences and then of origins. -/
theorem versionOrderIsTotal : Obligations.VersionOrderIsTotal := by
  refine ⟨newer_iff, fun a b unequal => ?_, newer_self, fun a b c => newer_trans, fun v written =>
    ⟨newer_nil_of_written v written, if_neg written⟩, fun v nil => if_pos nil⟩
  cases hab : newer a b with
  | true => exact .inl ⟨rfl, newer_asymm hab⟩
  | false =>
    cases hba : newer b a with
    | true => exact .inr ⟨rfl, rfl⟩
    | false => exact absurd (Version.eq_of_not_newer hab hba) unequal

end Sys2Proof.Machine
end

section
/-! PROOF. The resets and the tick (O4, O5, O7). -/

namespace Sys2Proof.Machine

/-! ## Resets (R192, R193) -/

/-- A reset puts every unit at its reset value, whatever its control (R190, R192). -/
theorem State.toReset_cleared (s : State) (control : ResetControl) :
    s.Cleared (s.toReset control) where
  phase := ⟨rfl, rfl⟩
  tick := rfl
  timers := ⟨rfl, rfl, rfl⟩
  origin := rfl
  peers n := by simp [State.peer, State.toReset, Membership.reset, PeerEntry.reset]
  store := ⟨rfl, rfl, rfl⟩
  media := ⟨rfl, rfl, rfl, rfl, rfl, rfl, rfl⟩
  mount := ⟨rfl, rfl⟩
  line := ⟨rfl, rfl, rfl, rfl, rfl⟩
  proposals i := by simp [State.proposal, State.toReset, WriteCoordinator.reset]
  reads i := by simp [State.readEntry, State.toReset, ReadCoordinator.reset]
  repair := ⟨rfl, rfl, rfl, rfl, rfl⟩
  client := ⟨rfl, rfl, rfl, rfl, rfl⟩
  transaction := by
    refine ⟨fun closed => ?_, fun leading response opened => ?_⟩ <;>
      simp [State.toReset, ClientPort.reset, Transaction.afterReset, *]
  attention := Bool.and_false _
  sectors := rfl
  pending := rfl

theorem State.afterReset_of_held {t : Transaction} (h : t ≠ .closed) :
    t.afterReset true = .abandoned := by
  cases t with
  | closed => exact absurd rfl h
  | abandoned | ignored | opened => rfl

/-- A part whose control holds it in reset drives none of its pins (R178, R192). -/
theorem State.toReset_held (s : State) {control : ResetControl}
    (held : (control.powerOnHeld || control.resetnHeld) = true) : (s.toReset control).Held := by
  have released : (s.toReset control).released = false := by
    simpa only [State.released, State.toReset, Bool.not_eq_true', ← Bool.not_or,
      Bool.not_eq_false'] using held
  refine ⟨released, ⟨rfl, rfl, rfl⟩, fun n => ?_, ?_, ?_, fun sends => ?_, ?_⟩
  · unfold State.sdo
    split <;> simp [released]
  · simp [State.lineFrame, State.live, State.awake, released]
  · simp [State.mediaSelected, released]
  · simp [State.mediaDriven, released]
  · simp [State.attention, released]

theorem State.toReset_transaction (s : State) {control : ResetControl}
    (held : (control.powerOnHeld || control.resetnHeld) = true)
    (h : s.client.transaction ≠ .closed) :
    (s.toReset control).client.transaction = .abandoned := by
  simp only [State.toReset, ClientPort.reset, held]
  exact State.afterReset_of_held h

/-- Settles O4: by what a reset leaves, under the control of the one recognised. -/
theorem resetsHoldThePart : Obligations.ResetsHoldThePart := by
  refine ⟨fun s => ?_, fun n s recognised => ?_, fun n s short => ?_⟩
  · exact ⟨_, rfl, s.toReset_cleared _, s.toReset_held rfl, s.toReset_transaction rfl, rfl⟩
  · exact ⟨_, congrArg Host.Outcome.next (if_pos recognised), s.toReset_cleared _,
      s.toReset_held (Bool.or_true _), s.toReset_transaction (Bool.or_true _), rfl⟩
  · exact congrArg Host.Outcome.next (if_neg (Nat.not_le.mpr short))

/-- A part that leaves reset has every unit at its reset value but the media port. -/
theorem State.startUp_cleared (s : State) (straps : Straps) : s.Cleared (s.startUp straps) :=
  { s.toReset_cleared ⟨false, false, false, straps⟩ with }

theorem State.startUp_mounting (s : State) (straps : Straps) : (s.startUp straps).Mounting straps :=
  ⟨rfl, rfl, rfl, rfl⟩

/-- Settles O5: by the two ways a held part takes a release. -/
theorem releaseSamplesStrapsAndMounts : Obligations.ReleaseSamplesStrapsAndMounts := by
  intro source straps s
  refine ⟨fun released => congrArg Host.Outcome.next (if_pos released), fun held => ?_⟩
  have exec_held : exec (.resetRelease source straps) s = .next
      (if (s.control.release source).powerOnHeld || (s.control.release source).resetnHeld then
        s.onControl fun _ => s.control.release source else s.startUp straps) :=
    congrArg Host.Outcome.next (if_neg (by simp [held]))
  refine ⟨fun still => ?_, fun last => ⟨s.startUp straps, ?_, s.startUp_cleared straps,
    s.startUp_mounting straps⟩⟩
  · rw [exec_held, if_pos still]
    rfl
  · rw [exec_held, if_neg (by simp [last])]

/-! ## The tick (R99) -/

/-- A tick at a station that takes no part in the line, but is not held in reset (R99). -/
theorem State.exec_tick_of_not_live {s : State} (answered : Nat) (released : s.released = true)
    (h : s.live = false) :
    exec (.tick answered) s = .next (s.answerSteps answered).countTick := by
  simp [exec, execTick, released, h]

theorem State.released_of_live {s : State} (h : s.live = true) : s.released = true := by
  simp only [State.live, State.awake, Bool.and_eq_true] at h
  exact h.1.1

theorem State.exec_tick_of_live {s : State} (answered : Nat) (h : s.live = true) :
    exec (.tick answered) s = .next (s.answerSteps answered).countTick.countWindows := by
  simp [exec, execTick, State.released_of_live h, h]

/-- Answers at the port reach the media controller and the event queue alone (log 20). -/
theorem State.answerSteps_eq (s : State) (k : Nat) :
    s.answerSteps k = { s with
      media := (s.answerSteps k).media, client := (s.answerSteps k).client } := by
  have kept := s.answerSteps_keeps k
  generalize s.answerSteps k = t at kept ⊢
  cases t
  simp_all

/-- At a station that takes no part in the line an answer raises nothing (log 15, log 19). -/
theorem State.answerStep_client_of_not_live {s : State} (h : s.live = false) :
    s.answerStep.client = s.client := by
  unfold State.answerStep State.afterMark State.relocate
  repeat' split
  all_goals simp [State.takeSpare, State.noSpare, State.programCopy, State.endWrite, h]

theorem State.answerStep_live (s : State) : s.answerStep.live = s.live := by
  simp [State.live, State.awake_of (s := s) (t := s.answerStep) (by simp)]

theorem State.answerSteps_client_of_not_live {s : State} (h : s.live = false) (k : Nat) :
    (s.answerSteps k).client = s.client := by
  induction k generalizing s with
  | zero => rfl
  | succ k ih =>
    exact (ih (s.answerStep_live.trans h)).trans (State.answerStep_client_of_not_live h)

@[simp] theorem Membership.countTimer_keeps (m : Membership) (interval : Nat) :
    (m.countTimer interval).tick = m.tick ∧ (m.countTimer interval).phase = m.phase ∧
    (m.countTimer interval).faultReason = m.faultReason ∧
    (m.countTimer interval).listenWindow = m.listenWindow ∧
    (m.countTimer interval).origin = m.origin ∧ (m.countTimer interval).peers = m.peers := by
  unfold Membership.countTimer
  split
  · simp
  · split <;> simp

/-- What a tick leaves of a station that takes part in the line, m and c being its media controller
and its client port as the steps answered leave them (R99). -/
theorem State.countWindows_spec (s : State) (m : MediaController) (c : ClientPort) :
    let t := ({ s with media := m, client := c } : State).countTick.countWindows
    t.member.tick = s.member.tick + 1#32 ∧
    (s.member.heartbeatTimer = none →
      t.member.heartbeatTimer = none ∧ t.member.heartbeatDue = s.member.heartbeatDue) ∧
    (∀ n, s.member.heartbeatTimer = some n → n ≤ 1 →
      t.member.heartbeatTimer = some s.interval ∧ t.member.heartbeatDue = true) ∧
    (∀ n, s.member.heartbeatTimer = some n → 1 < n →
      t.member.heartbeatTimer = some (n - 1) ∧
        t.member.heartbeatDue = s.member.heartbeatDue) ∧
    t.member.listenWindow = s.member.listenWindow.map (· - 1) ∧
    (∀ n, t.peer n = { s.peer n with silence := (s.peer n).silence.map (· - 1) }) ∧
    (∀ i, t.proposal i =
      { s.proposal i with window := (s.proposal i).window.map (· - 1) }) ∧
    (∀ i, t.readEntry i = { s.readEntry i with
      queryWindow := (s.readEntry i).queryWindow.map (· - 1)
      fetchWindow := (s.readEntry i).fetchWindow.map (· - 1)
      backOff := (s.readEntry i).backOff.map (· - 1) }) ∧
    t.repair = { s.repair with
      fetch := { s.repair.fetch with
        window := s.repair.fetch.window.map (· - 1)
        backOff := s.repair.fetch.backOff.map (· - 1) }
      cursor := { s.repair.cursor with
        rangeWindow := s.repair.cursor.rangeWindow.map (· - 1)
        pushDeadline := s.repair.cursor.pushDeadline.map (· - 1)
        backOff := s.repair.cursor.backOff.map (· - 1)
        rest := s.repair.cursor.rest.map (· - 1) } } ∧
    t.media = { m with stepWindow := m.stepWindow.map (· - 1) } ∧
    t.member.phase = s.member.phase ∧ t.member.faultReason = s.member.faultReason ∧
    t.member.origin = s.member.origin ∧ t.control = s.control ∧ t.store = s.store ∧
    t.mount = s.mount ∧ t.line = s.line ∧ t.client = c := by
  intro t
  have member : t.member =
      ({ s.member with tick := s.member.tick + 1#32 } : Membership).countWindows s.interval := rfl
  refine ⟨?_, fun h => ?_, fun n h hn => ?_, fun n h hn => ?_, ?_, fun n => ?_, fun i => ?_,
    fun i => ?_, rfl, rfl, ?_, ?_, ?_, rfl, rfl, rfl, rfl, rfl⟩
  · simp [member, Membership.countWindows]
  · simp [member, Membership.countWindows, Membership.countTimer, h]
  · simp [member, Membership.countWindows, Membership.countTimer, h, hn]
  · simp [member, Membership.countWindows, Membership.countTimer, h, Nat.not_le.mpr hn]
  · simp [member, Membership.countWindows, Window.count]
  · simp [State.peer, member, Membership.countWindows, Window.count]
  · exact vector_get_map _ _ _
  · exact vector_get_map _ _ _
  · simp [member, Membership.countWindows]
  · simp [member, Membership.countWindows]
  · simp [member, Membership.countWindows]

/-- Settles O7: by the steps answered, and then by the windows that count. -/
theorem tickCountsEveryWindow : Obligations.TickCountsEveryWindow := by
  refine ⟨fun k s => ⟨rfl, rfl, fun idle => ?_, fun last other =>
    s.answerStep_last (le_of_eq last) other, fun first next rest more => ?_⟩, fun answered s => ?_⟩
  · simp [State.answerStep, idle]
  · rw [s.answerStep_next more]
    cases next <;> rfl
  · have answers := s.answerSteps_eq answered
    refine ⟨fun held => congrArg Host.Outcome.next (if_neg (by simp [held])),
      fun released idle => ?_, fun live => ?_⟩
    · rw [State.exec_tick_of_not_live answered released idle, answers,
        State.answerSteps_client_of_not_live idle]
      rfl
    · refine ⟨_, State.exec_tick_of_live answered live, ?_⟩
      rw [answers]
      generalize (s.answerSteps answered).media = m
      generalize (s.answerSteps answered).client = c
      exact s.countWindows_spec m c

end Sys2Proof.Machine
end

section
/-! PROOF. The sector write at the media port: how it is aimed, verified and relocated, and what the
interval of a RESTART leaves of it (O6, O14, O21). -/

namespace Sys2Proof.Machine

/-! ## The outcomes of a verify (R32) -/

theorem verifyResult_eq_good_iff (programError : Bool) (r : ReadBack) :
    verifyResult programError r = .good ↔
      programError = false ∧ ∃ bytes, r = .decoded bytes 0 ∧ headerCheck bytes = true := by
  cases programError with
  | true => simp [verifyResult]
  | false =>
    cases r with
    | blank | undecodable => simp [verifyResult]
    | decoded bytes n =>
      cases check : headerCheck bytes <;> by_cases zero : n = 0 <;>
        simp [verifyResult, check, zero]

theorem verifyResult_eq_weak_iff (programError : Bool) (r : ReadBack) :
    verifyResult programError r = .weak ↔
      programError = false ∧
        ∃ bytes k, r = .decoded bytes (k + 1) ∧ headerCheck bytes = true := by
  cases programError with
  | true => simp [verifyResult]
  | false =>
    cases r with
    | blank | undecodable => simp [verifyResult]
    | decoded bytes n =>
      cases check : headerCheck bytes <;> cases n <;> simp [verifyResult, check]

/-! ## The steps before a verify (log 20) -/

/-- The answers to the steps of a copy being programmed reach the steps and the sectors alone. -/
theorem State.answerSteps_of_verifying {s : State} {op : WriteOp} {n : Nat} {previous : Option Nat}
    (port : s.media.port = some (.write op)) (stage : op.stage = .verifying n previous) (k : Nat) :
    ∃ steps window sectors, s.answerSteps k = s.onMedia fun m =>
      { m with steps := steps, stepWindow := window, sectors := sectors } := by
  induction k generalizing s with
  | zero => exact ⟨_, _, _, rfl⟩
  | succ k ih =>
    have other : ∀ op' n' written, s.media.port = some (.write op') →
        op'.stage ≠ .retiring n' written := by
      rintro op' n' written port' retiring
      obtain rfl : op = op' := by simpa using port.symm.trans port'
      simp [stage] at retiring
    match steps : s.media.steps with
    | [] | [_] =>
      have last : s.answerStep = s := s.answerStep_last (by simp [steps]) other
      rw [State.answerSteps, last]
      exact ih port
    | first :: next :: rest =>
      rw [State.answerSteps, s.answerStep_next steps]
      exact ih (s := s.onMedia fun m => m.run (next :: rest)) (by simpa using port)

theorem State.lastStep_of_verifying {s : State} {op : WriteOp} {n : Nat} {previous : Option Nat}
    (port : s.media.port = some (.write op)) (stage : op.stage = .verifying n previous) :
    ∃ steps window, s.lastStep = s.onMedia fun m =>
      { m with steps := steps, stepWindow := window, sectors := s.lastStep.media.sectors } := by
  obtain ⟨steps, window, sectors, last⟩ :=
    State.answerSteps_of_verifying port stage (s.media.steps.length + 2)
  have same : s.lastStep.media.sectors = sectors := congrArg (·.media.sectors) last
  exact ⟨steps, window, by rw [same]; exact last⟩

/-- The operation that starts its steps takes no account of the steps before them. -/
theorem State.usePort_after_steps (s : State) (op : MediaOp) (l steps : List MediaStep)
    (window : Window) (sectors : List (Nat × SectorContent)) :
    (s.onMedia fun m => { m with steps := steps, stepWindow := window, sectors := sectors }).usePort
        op l =
      (s.onMedia fun m => { m with sectors := sectors }).usePort op l := by
  cases l <;> rfl

/-- The verify is judged over the sectors as every step before it leaves them. -/
theorem State.exec_verify_at_last {s : State} {op : WriteOp} {n : Nat} {previous : Option Nat}
    (programError : Bool) (reading : Reading) (port : s.lastStep.media.port = some (.write op))
    (stage : op.stage = .verifying n previous) :
    exec (.verify programError reading) s = .next ((s.lastStep.retirePrevious previous).afterVerify
      op previous n (verifyResult programError
        (readBack (lookupKey s.lastStep.media.sectors n) reading))) := by
  show Host.Outcome.next (s.verify programError reading) = _
  simp only [State.verify, port, stage]
  rfl

theorem State.exec_verify {s : State} {op : WriteOp} {n : Nat} {previous : Option Nat}
    (programError : Bool) (reading : Reading) (port : s.media.port = some (.write op))
    (stage : op.stage = .verifying n previous) :
    exec (.verify programError reading) s = .next ((s.lastStep.retirePrevious previous).afterVerify
      op previous n (verifyResult programError
        (readBack (lookupKey s.lastStep.media.sectors n) reading))) := by
  obtain ⟨steps, window, last⟩ := State.lastStep_of_verifying port stage
  exact State.exec_verify_at_last programError reading (by rw [last]; exact port) stage

/-- Where no spare is free for the relocation after a mark, its answer changes nothing yet, and
VERIFY has nothing to judge. -/
theorem State.exec_verify_of_retiring {s : State} {op : WriteOp} {n : Nat} {written : Bool}
    (programError : Bool) (reading : Reading) (port : s.media.port = some (.write op))
    (stage : op.stage = .retiring n written) (stays : s.answerStep = s) :
    exec (.verify programError reading) s = .next s := by
  have last : s.lastStep = s := s.answerSteps_fixed stays _
  show Host.Outcome.next (s.verify programError reading) = _
  simp only [State.verify, last, port, stage]

/-! ## What follows a verify (R33 to R35) -/

theorem State.afterVerify_relocates (s : State) {op : WriteOp} {result : VerifyResult}
    (owed : Option Nat) (n : Nat) (bad : result ≠ .good) (few : op.taken.length < 3) :
    s.afterVerify op owed n result = s.callRelocation op owed n (decide (result = .weak)) := by
  cases result with
  | good => exact absurd rfl bad
  | weak | failed => exact if_pos few

theorem State.afterVerify_ends (s : State) {op : WriteOp} {result : VerifyResult}
    (owed : Option Nat) (n : Nat) (bad : result ≠ .good) (many : 3 ≤ op.taken.length) :
    s.afterVerify op owed n result = s.endWrite op owed (decide (result = .weak)) (some n) := by
  cases result with
  | good => exact absurd rfl bad
  | weak | failed => exact if_neg (Nat.not_lt.mpr many)

theorem State.relocate_of_spare {s : State} {op : WriteOp} {m : Nat} (previous : Option Nat)
    (written : Bool) (spare : s.nextSpare op = some m) :
    s.relocate op previous written =
      (s.takeSpare m).programCopy { op with taken := m :: op.taken } m previous := by
  simp [State.relocate, spare]

theorem State.relocate_of_no_spare {s : State} {op : WriteOp} (previous : Option Nat)
    (written : Bool) (spare : s.nextSpare op = none) :
    s.relocate op previous written = (s.noSpare op.block).endWrite op none written previous := by
  simp [State.relocate, spare]

/-- A relocation at a station that takes part in the line (R33, R36). -/
theorem State.relocatedTo_of_spare {s : State} {op : WriteOp} {m : Nat} (n : Nat) (written : Bool)
    (live : s.live = true) (spare : s.nextSpare op = some m) :
    s.RelocatedTo (s.relocate op (some n) written) op n m s.media.sectors := by
  rw [State.relocate_of_spare (some n) written spare, State.takeSpare_of_live live]
  split
  · next low => exact ⟨rfl, rfl, rfl, rfl, rfl, (if_pos low).symm⟩
  · next enough => exact ⟨rfl, rfl, rfl, rfl, rfl, (if_neg enough).symm⟩

/-! ## VERIFY at a station that takes part in the line (O14) -/

/-- What every verify leaves as it was. -/
theorem State.afterVerify_keeps (s : State) (op : WriteOp) (owed : Option Nat) (n : Nat)
    (result : VerifyResult) :
    let t := s.afterVerify op owed n result
    t.store = s.store ∧ t.line = s.line ∧ t.member = s.member ∧ t.writes = s.writes ∧
      t.reads = s.reads ∧ t.repair = s.repair ∧ t.media.retired = s.media.retired := by
  cases result with
  | good => simp [State.afterVerify]
  | weak | failed => unfold State.afterVerify; dsimp only; split <;> simp

/-- The sector whose verify called for the relocation is retired (R33). -/
theorem State.retirePrevious_of_live {s : State} (live : s.live = true) (previous : Option Nat) :
    ∃ retired, s.retirePrevious previous = (s.onMedia fun m => { m with retired := retired }) ∧
      ∀ k, k ∈ retired ↔ k ∈ s.media.retired ∨ previous = some k := by
  cases previous with
  | none => exact ⟨s.media.retired, rfl, fun k => by simp⟩
  | some n =>
    refine ⟨addSorted s.media.retired n, if_pos live, fun k => ?_⟩
    rw [mem_addSorted, Option.some_inj, eq_comm]

/-- t is s with the write at the port, the mark owed for a sector, if any, being the step to come
(R33 step 3). -/
structure State.MarksFor (s t : State) (op : WriteOp) (owed : Option Nat) : Prop where
  port      : t.media.port = some (.write op)
  steps     : t.media.steps = match (generalizing := false) owed with
    | none => []
    | some k => [.mark k]
  window    : t.media.stepWindow = if owed = none then none else some 8
  sectors   : t.media.sectors = match (generalizing := false) owed with
    | none => s.media.sectors
    | some k => putKey s.media.sectors k (.mark k)
  spares    : t.media.spares = s.media.spares
  exhausted : t.media.sparesExhausted = s.media.sparesExhausted
  client    : t.client = s.client

theorem State.marksFor_usePort (s : State) (op : WriteOp) (owed : Option Nat) :
    s.MarksFor (s.usePort (.write op) (markSteps owed)) op owed := by
  cases owed <;> exact ⟨rfl, rfl, rfl, rfl, rfl, rfl, rfl⟩

/-- A relocation that first waits for the mark of the one before it (R33 step 3). -/
theorem State.callRelocation_of_owed (s : State) (op : WriteOp) (owed : Option Nat) (n : Nat)
    (written : Bool) (h : owed ≠ none) :
    s.callRelocation op owed n written =
      s.usePort (.write { op with stage := .retiring n written }) (markSteps owed) := by
  cases owed with
  | none => exact absurd rfl h
  | some k => rfl

/-- SPARES_EXHAUSTED is raised the first time that a relocation finds the pool empty (R35). -/
theorem State.noSpare_of_live {s : State} (live : s.live = true) (b : Nat) :
    s.noSpare b = { s with
      media := { s.media with sparesExhausted := true }
      client := if s.media.sparesExhausted then s.client
        else s.client.raise .sparesExhausted (.block b) .none } := by
  cases exhausted : s.media.sparesExhausted with
  | true =>
    obtain ⟨_, _, _, ⟨_⟩⟩ := s
    simp_all [State.noSpare]
  | false =>
    simp only [State.noSpare, live, exhausted]
    rfl

/-- The relocation takes no account of the steps before it, of the sectors retired before it, nor of
how the sector contents came about. -/
theorem State.RelocatedTo.of_after {s t : State} {op : WriteOp} {n m : Nat}
    {sectors : List (Nat × SectorContent)} (f : MediaController → MediaController)
    (spares : (f s.media).spares = s.media.spares)
    (h : (s.onMedia f).RelocatedTo t op n m sectors) : s.RelocatedTo t op n m sectors := by
  have spares' : (s.onMedia f).media.spares = s.media.spares := spares
  exact ⟨h.port, h.steps, h.window, h.sectors, by rw [h.spares, spares'],
    by rw [h.client, spares']; rfl⟩

/-- The mark before a relocation is answered, and the relocation takes its spare; or there is none,
and nothing follows yet (log 20). -/
theorem State.mark_answered {op : WriteOp} {n : Nat} {written : Bool} {x : MediaStep} {s : State}
    (live : s.live = true) (port : s.media.port = some (.write op))
    (stage : op.stage = .retiring n written) (steps : s.media.steps = [x]) :
    (∀ m, s.nextSpare op = some m → s.RelocatedTo s.answerStep op n m s.media.sectors) ∧
    (s.nextSpare op = none → s.answerStep = s) := by
  refine ⟨fun m spare => ?_, fun spare => ?_⟩
  · have moved : s.answerStep = s.relocate op (some n) written := by
      simp [State.answerStep, State.afterMark, steps, port, stage, spare]
    rw [moved]
    exact State.relocatedTo_of_spare n written live spare
  · simp [State.answerStep, State.afterMark, steps, port, stage, spare]

/-- Once the write is at its next sector, VERIFY judges it there, whether or not the answer to the
mark was told before (log 20). -/
theorem State.exec_verify_answerStep {s : State} {op : WriteOp} {m : Nat} {previous : Option Nat}
    {x y z : MediaStep} (steps : s.media.steps = [x])
    (port : s.answerStep.media.port = some (.write op)) (stage : op.stage = .verifying m previous)
    (next : s.answerStep.media.steps = [y, z]) (programError : Bool) (reading : Reading) :
    exec (.verify programError reading) s = exec (.verify programError reading) s.answerStep := by
  have second := s.answerStep.answerStep_next next
  have fixed : s.answerStep.answerStep.answerStep = s.answerStep.answerStep := by
    refine State.answerStep_last _ (by rw [second]; simp) ?_
    rw [second]
    intro op' n' written port'
    have same : op' = op := by simpa [port, eq_comm] using port'
    simp [same, stage]
  have last : s.lastStep = s.answerStep.lastStep := calc s.lastStep
    _ = s.answerStep.answerStep.answerSteps 1 := by simp only [State.lastStep, steps]; rfl
    _ = s.answerStep.answerStep := State.answerSteps_fixed _ fixed 1
    _ = s.answerStep.answerStep.answerSteps 3 := (State.answerSteps_fixed _ fixed 3).symm
    _ = s.answerStep.lastStep := by simp only [State.lastStep, next]; rfl
  obtain ⟨_, _, over_sectors⟩ := State.lastStep_of_verifying port stage
  have lastPort : s.answerStep.lastStep.media.port = some (.write op) := by
    rw [over_sectors]
    exact port
  rw [State.exec_verify_at_last programError reading lastPort stage,
    State.exec_verify_at_last programError reading (last ▸ lastPort) stage, last]

/-- What follows each result of a verify, s being the station as it is judged (R33 to R35). -/
theorem State.afterVerify_spec {s : State} (live : s.live = true) (op : WriteOp)
    (owed : Option Nat) (n : Nat) (result : VerifyResult) :
    let t := s.afterVerify op owed n result
    let ended := { op with stage := .ended (decide (result = .weak)) (some n) }
    (result = .good → s.MarksFor t { op with stage := .ended true (some n) } owed) ∧
    (result ≠ .good → op.taken.length < 3 → owed = none →
      (∀ m, s.nextSpare op = some m → s.RelocatedTo t op n m s.media.sectors) ∧
      (s.nextSpare op = none → (s.noSpare op.block).MarksFor t ended none)) ∧
    (result ≠ .good → op.taken.length < 3 → owed ≠ none →
      s.MarksFor t { op with stage := .retiring n (decide (result = .weak)) } owed) ∧
    (result ≠ .good → 3 ≤ op.taken.length → s.MarksFor t ended owed) := by
  refine ⟨?_, fun bad few unowed => ⟨fun m spare => ?_, fun none_free => ?_⟩, fun bad few h => ?_,
    fun bad many => ?_⟩
  · rintro rfl
    exact s.marksFor_usePort _ owed
  · rw [s.afterVerify_relocates owed n bad few, unowed]
    exact State.relocatedTo_of_spare n _ live spare
  · rw [s.afterVerify_relocates owed n bad few, unowed]
    show State.MarksFor _ (s.relocate op (some n) _) _ _
    rw [State.relocate_of_no_spare (some n) _ none_free]
    exact State.marksFor_usePort _ _ none
  · rw [s.afterVerify_relocates owed n bad few, s.callRelocation_of_owed op owed n _ h]
    exact s.marksFor_usePort _ owed
  · rw [s.afterVerify_ends owed n bad many]
    exact s.marksFor_usePort _ owed

/-- The station as a verify is judged: the steps before it are over, and the sector that is owed its
mark, if any, is retired (R33, log 20). -/
def State.judging (s : State) (steps : List MediaStep) (window : Window) (retired : List Nat) :
    State :=
  s.onMedia fun m => { m with
    steps := steps, stepWindow := window, retired := retired, sectors := s.lastStep.media.sectors }

theorem State.exec_verify_of_live {s : State} {op : WriteOp} {n : Nat} {previous : Option Nat}
    (programError : Bool) (reading : Reading) (live : s.live = true)
    (port : s.media.port = some (.write op)) (stage : op.stage = .verifying n previous) :
    ∃ steps window retired,
      exec (.verify programError reading) s = .next ((s.judging steps window retired).afterVerify
        op previous n (verifyResult programError
          (readBack (lookupKey s.lastStep.media.sectors n) reading))) ∧
      ∀ k, k ∈ retired ↔ k ∈ s.media.retired ∨ previous = some k := by
  obtain ⟨steps, window, last⟩ := State.lastStep_of_verifying port stage
  obtain ⟨retired, retires, joined⟩ :=
    State.retirePrevious_of_live (s := s.lastStep) (by rw [last]; exact live) previous
  refine ⟨steps, window, retired, ?_, by rw [last] at joined; exact joined⟩
  have same : s.lastStep.onMedia (fun m => { m with retired := retired }) =
      s.judging steps window retired :=
    congrArg (State.onMedia · fun m => { m with retired := retired }) last
  rw [State.exec_verify programError reading port stage, retires, same]

/-- Settles O14: by the result of the verify, and by what the relocation waits for. -/
theorem verifyFinishesOrRelocates : Obligations.VerifyFinishesOrRelocates := by
  refine ⟨fun op n written x s live port stage steps => ?_,
    fun programError reading op n previous s live port stage => ?_⟩
  · obtain ⟨moves, stays⟩ := State.mark_answered live port stage steps
    refine ⟨fun m spare => ⟨moves m spare, ?_⟩, fun spare => ⟨stays spare, fun e r => ?_⟩⟩
    · have kept := s.answerStep_keeps
      have moved := moves m spare
      exact ⟨kept.2.2.2.1, by simp, by simp, by simp, by simp, by simp, by simp,
        State.exec_verify_answerStep steps moved.port rfl moved.steps⟩
    · exact State.exec_verify_of_retiring e r port stage (stays spare)
  · intro sectors r owed marked window spare good weak
    obtain ⟨steps, limit, retired, verify, joined⟩ :=
      State.exec_verify_of_live programError reading live port stage
    have isGood : verifyResult programError r = .good ↔ good := verifyResult_eq_good_iff _ _
    have isWeak : verifyResult programError r = .weak ↔ weak := verifyResult_eq_weak_iff _ _
    obtain ⟨keptStore, keptLine, keptMember, keptWrites, keptReads, keptRepair, keptRetired⟩ :=
      (s.judging steps limit retired).afterVerify_keeps op previous n (verifyResult programError r)
    obtain ⟨finishes, relocates, waits, ends⟩ :=
      State.afterVerify_spec (s := s.judging steps limit retired) live op previous n
        (verifyResult programError r)
    clear_value good weak
    refine ⟨_, verify, keptStore, keptLine, keptMember, keptWrites, keptReads, keptRepair,
      fun k => by rw [keptRetired]; exact joined k, fun isgood => ?_,
      fun bad few unowed m free => ?_, fun bad few h => ?_, fun bad alone => ?_⟩
    · have marks := finishes (isGood.mpr isgood)
      exact ⟨marks.port, marks.steps, marks.window, marks.sectors, marks.spares, marks.client⟩
    · exact ((relocates (mt isGood.mp bad) few unowed).1 m free).of_after _ rfl
    · have marks := waits (mt isGood.mp bad) few h
      exact ⟨_, decide_eq_true_iff.trans isWeak, marks.port, marks.steps,
        marks.window.trans (if_neg h), marks.sectors, marks.spares, marks.exhausted, marks.client⟩
    · have endsAs : ∀ {u t owed}, State.MarksFor u t { op with
            stage := .ended (decide (verifyResult programError r = .weak)) (some n) } owed →
          (weak → t.media.port = some (.write { op with stage := .ended true (some n) })) ∧
          (¬ weak → t.media.port = some (.write { op with stage := .ended false (some n) })) :=
        fun marks => ⟨fun w => by rw [marks.port, decide_eq_true (isWeak.mpr w)],
          fun w => by rw [marks.port, decide_eq_false (mt isWeak.mp w)]⟩
      by_cases many : 3 ≤ op.taken.length
      · have marks := ends (mt isGood.mp bad) many
        exact ⟨(endsAs marks).1, (endsAs marks).2, marks.steps, marks.window, marks.sectors,
          marks.spares, fun _ => ⟨marks.client, marks.exhausted⟩,
          fun few => absurd many (Nat.not_le.mpr few)⟩
      · obtain ⟨unowed, none_free⟩ := alone.resolve_left many
        have marks := (relocates (mt isGood.mp bad) (Nat.not_le.mp many) unowed).2 none_free
        rw [State.noSpare_of_live (s := s.judging steps limit retired) live op.block] at marks
        subst unowed
        exact ⟨(endsAs marks).1, (endsAs marks).2, marks.steps, marks.window, marks.sectors,
          marks.spares, fun h => absurd h many, fun _ => ⟨marks.exhausted, marks.client⟩⟩

end Sys2Proof.Machine
end

section
/-! PROOF. How a write is aimed, what the interval of a RESTART leaves of the operation at the port,
and the faults of the port (O6, O19, O20, O21). -/

namespace Sys2Proof.Machine

/-! ## The aim of a write (R31) -/

theorem State.targetSector_of_sector {s : State} {b n : Nat}
    (h : (s.entryOf b).sector = some n) : s.targetSector b = some n := by
  simp [State.targetSector, h]

theorem State.targetSector_of_home {s : State} {b : Nat} (h : (s.entryOf b).sector = none)
    (home : b ∉ s.media.retired) : s.targetSector b = some b := by
  simp [State.targetSector, h, home]

theorem State.targetSector_of_retired {s : State} {b : Nat} (h : (s.entryOf b).sector = none)
    (home : b ∈ s.media.retired) : s.targetSector b = none := by
  simp [State.targetSector, h, home]

section
variable {s : State} {e : StagingEntry} {rest : List StagingEntry}
  (staging : s.store.staging = e :: rest)
include staging

theorem State.takeWrite_of_target {n : Nat} (h : s.targetSector e.block = some n) :
    s.takeWrite = (s.startHead e rest).programCopy e.op n none := by
  simp [State.takeWrite, staging, h]

theorem State.takeWrite_of_no_target (h : s.targetSector e.block = none) :
    s.takeWrite = (s.startHead e rest).relocate e.op none false := by
  simp [State.takeWrite, staging, h]

/-- Whatever its aim, the head becomes WRITING and no sector is retired (R23, R28). -/
theorem State.takeWrite_head :
    s.takeWrite.store = { s.store with staging := { e with state := .writing } :: rest } ∧
    s.takeWrite.media.passedOver = 0 ∧ s.takeWrite.media.retired = s.media.retired := by
  cases target : s.targetSector e.block with
  | some n =>
    rw [State.takeWrite_of_target staging target]
    exact ⟨rfl, rfl, rfl⟩
  | none =>
    rw [State.takeWrite_of_no_target staging target]
    refine ⟨?_, ?_, ?_⟩ <;> simp [State.startHead]

end

/-- A write that has taken no spare takes the lowest-numbered free one (R33). -/
theorem State.nextSpare_op (s : State) (e : StagingEntry) : s.nextSpare e.op = s.media.spares.head? := by
  cases h : s.media.spares <;> simp [State.nextSpare, StagingEntry.op, h]

/-- Settles O21: by the three sectors a write may be aimed at. -/
theorem writeIsAimedAtItsTarget : Obligations.WriteIsAimedAtItsTarget := by
  intro e rest s live staging
  obtain ⟨store, passed, retired⟩ := State.takeWrite_head staging
  have aimed : ∀ n, s.targetSector e.block = some n → _ :=
    fun n target => State.takeWrite_of_target staging target
  refine ⟨store, passed, retired, fun n sector => ?_, fun sector home => ?_,
    fun sector home => ⟨fun n more spares => ?_, fun spares => ?_⟩⟩
  · rw [aimed n (State.targetSector_of_sector sector)]
    exact ⟨⟨rfl, rfl, rfl, rfl⟩, rfl⟩
  · rw [aimed e.block (State.targetSector_of_home sector home)]
    exact ⟨⟨rfl, rfl, rfl, rfl⟩, rfl⟩
  · have free : (s.startHead e rest).nextSpare e.op = some n := by
      rw [State.nextSpare_op]
      exact congrArg List.head? spares
    rw [State.takeWrite_of_no_target staging (State.targetSector_of_retired sector home),
      State.relocate_of_spare none false free, State.takeSpare_startHead,
      State.takeSpare_of_live live]
    split
    · next low => exact ⟨⟨rfl, rfl, rfl, rfl⟩, rfl, (if_pos low).symm⟩
    · next enough => exact ⟨⟨rfl, rfl, rfl, rfl⟩, rfl, (if_neg enough).symm⟩
  · have none_free : (s.startHead e rest).nextSpare e.op = none := by
      rw [State.nextSpare_op]
      exact congrArg List.head? spares
    rw [State.takeWrite_of_no_target staging (State.targetSector_of_retired sector home),
      State.relocate_of_no_spare none false none_free, State.noSpare_startHead,
      State.noSpare_of_live live]
    exact ⟨rfl, rfl, rfl, rfl, rfl⟩

/-! ## The arbiter (R27, R28, R45) -/

theorem State.arbiterStep_of_busy {s : State} (h : s.media.port ≠ none) : s.arbiterStep = none :=
  if_pos (Option.isSome_iff_ne_none.mpr h)

section
variable {s : State} (free : s.media.port = none)
include free

/-- After two passes the waiting head comes before every read (R28). -/
theorem State.arbiterStep_of_passed (waiting : s.headWaiting = true)
    (passed : s.media.passedOver = 2) : s.arbiterStep = some s.takeWrite := by
  simp [State.arbiterStep, free, waiting, passed]

theorem State.arbiterStep_of_client {r : ReadRequest} {rest : List ReadRequest}
    (client : s.media.clientRequests = r :: rest)
    (kept : ¬ (s.headWaiting = true ∧ s.media.passedOver = 2)) :
    s.arbiterStep = some ((s.onMedia fun m => { m with clientRequests := rest }).tryRead r) := by
  have kept' : ¬ (s.media.passedOver = 2 ∧ s.headWaiting = true) := fun h => kept h.symm
  simp [State.arbiterStep, free, client, kept']

theorem State.arbiterStep_of_no_client (client : s.media.clientRequests = [])
    (kept : ¬ (s.headWaiting = true ∧ s.media.passedOver = 2)) : s.arbiterStep = s.arbiterLow := by
  have kept' : ¬ (s.media.passedOver = 2 ∧ s.headWaiting = true) := fun h => kept h.symm
  simp [State.arbiterStep, free, client, kept']

end

section
variable {s : State}

theorem State.arbiterLow_of_engine {r : ReadRequest} {rest : List ReadRequest}
    (engine : s.media.engineRequests = r :: rest) :
    s.arbiterLow = some ((s.onMedia fun m => { m with engineRequests := rest }).tryRead r) := by
  simp [State.arbiterLow, engine]

theorem State.arbiterLow_of_waiting (engine : s.media.engineRequests = [])
    (waiting : s.headWaiting = true) : s.arbiterLow = some s.takeWrite := by
  simp [State.arbiterLow, engine, waiting]

/-- A scrub read comes last, and waits for room in the staging queue (R27, R52). -/
theorem State.arbiterLow_of_scrub {b : Nat} {rest : List Nat}
    (engine : s.media.engineRequests = []) (waiting : s.headWaiting = false)
    (scrub : s.media.scrub = b :: rest) :
    s.arbiterLow =
      if s.store.staging.length < 16 then some (s.takeScrub b rest) else none := by
  simp only [State.arbiterLow, engine, waiting, scrub, Bool.false_eq_true, if_false]
  rfl

theorem State.arbiterLow_of_idle (engine : s.media.engineRequests = [])
    (waiting : s.headWaiting = false) (scrub : s.media.scrub = []) : s.arbiterLow = none := by
  simp [State.arbiterLow, engine, waiting, scrub]

end

/-- Settles O20: by the requests in the order of their classes. -/
theorem arbiterChoosesByClass : Obligations.ArbiterChoosesByClass := by
  intro s
  refine ⟨State.arbiterStep_of_busy, fun free => ⟨fun waiting first => ?_,
    fun r rest client kept => State.arbiterStep_of_client free client kept,
    fun r rest client engine kept => ?_, fun client engine waiting => ?_⟩,
    fun r => ⟨fun clean => ?_, fun other => if_neg other⟩⟩
  · by_cases passed : s.media.passedOver = 2
    · exact State.arbiterStep_of_passed free waiting passed
    · obtain ⟨client, engine⟩ := first.resolve_left passed
      rw [State.arbiterStep_of_no_client free client fun h => passed h.2,
        State.arbiterLow_of_waiting engine waiting]
  · rw [State.arbiterStep_of_no_client free client kept, State.arbiterLow_of_engine engine]
    rfl
  · rw [State.arbiterStep_of_no_client free client fun h => by simp [waiting] at h]
    refine ⟨fun b rest scrub room => ?_, fun full => ?_⟩
    · rw [State.arbiterLow_of_scrub engine waiting scrub, if_pos room]
      rfl
    · cases scrub : s.media.scrub with
      | nil => exact State.arbiterLow_of_idle engine waiting scrub
      | cons b rest =>
        have full : 16 ≤ s.store.staging.length := full.resolve_left (by simp [scrub])
        rw [State.arbiterLow_of_scrub engine waiting scrub, if_neg (Nat.not_lt.mpr full)]
  · unfold State.tryRead
    dsimp only
    rw [if_pos clean]
    unfold State.passOver
    split <;> rfl

/-! ## The faults of the port (R30, R116) -/

theorem State.failPort_of_awake {s : State} (h : s.awake = true) :
    s.failPort = s.freePort.enterFaulted .media := if_pos h

/-- What entering FAULTED leaves, from any other phase (R116). -/
theorem State.enterFaulted_of_ne {s : State} (reason : FaultReason)
    (h : s.member.phase ≠ .faulted) : s.enterFaulted reason = { s with
      member := { s.member with
        phase := .faulted, faultReason := reason, heartbeatTimer := none, heartbeatDue := false
        listenWindow := none, peers := s.member.peers.map fun e => { e with silence := none } }
      client := s.client.raise .phase .none (.phase .faulted)
      line := { s.line with queue := s.line.queue.map QueuedFrame.cut }
      mount := .reset } := if_neg h

/-- Settles O19: by what entering FAULTED leaves of the station with its port free. -/
theorem portFaultEntersFaulted : Obligations.PortFaultEntersFaulted := by
  intro s
  refine ⟨fun awake phase => ?_, fun running => ?_, fun idle => ?_, fun held => ?_⟩
  · have released : s.released = true := by
      simp only [State.awake, Bool.and_eq_true] at awake
      exact awake.1
    have fails : s.failPort = _ :=
      (State.failPort_of_awake awake).trans (State.enterFaulted_of_ne (s := s.freePort) .media phase)
    have fault : exec .portFault s = .next s.failPort :=
      congrArg Host.Outcome.next (if_pos released)
    have expires : s.media.steps ≠ [] → s.media.stepWindow = some 0 →
        exec .mediaStepLimitExpiry s = .next s.failPort := fun steps due =>
      congrArg Host.Outcome.next (if_pos (by simp [State.stepInProgress, Window.due, steps, due]))
    rw [fails] at fault expires
    refine ⟨_, fault, expires, rfl, rfl, rfl, rfl, rfl, rfl, fun n => vector_get_map _ _ _, rfl,
      rfl, rfl, rfl, rfl, rfl, rfl, rfl⟩
  · exact congrArg Host.Outcome.next (if_neg (by simp [Window.due, running]))
  · exact congrArg Host.Outcome.next (if_neg (by simp [State.stepInProgress, idle]))
  · exact congrArg Host.Outcome.next (if_neg (by simp [held]))

/-! ## The interval of a RESTART (R189) -/

/-- At the rise of CSn a transaction without a record to keep is only closed. -/
theorem State.closeShort_of_ready {s : State} (ready : s.PortReady) : s.closeShort = s.atRise := by
  obtain ⟨-, closed | ⟨leading, opened⟩⟩ := ready
  · simp only [State.closeShort, State.atRise, State.onClient, State.setTransaction,
      ClientPort.eventsShort, closed]
  · simp only [State.closeShort, State.atRise, State.onClient, State.setTransaction,
      ClientPort.eventsShort, opened]

theorem State.not_deaf_of_ready {s : State} (ready : s.PortReady) :
    s.client.transaction.deaf = false := by
  obtain ⟨-, closed | ⟨leading, opened⟩⟩ := ready
  · simp [closed, Transaction.deaf]
  · simp [opened, Transaction.deaf]

/-- A command at the rise of CSn that the part takes acts on the state with the transaction over
(R178). -/
theorem State.closing_of_awake {s : State} (awake : s.awake = true)
    (deaf : s.client.transaction.deaf = false) (act : State → State) :
    s.closing act = (act s.closeShort).settle := by
  simp [State.closing, awake, deaf]

theorem State.closing_of_ready {s : State} (ready : s.PortReady) (act : State → State) :
    s.closing act = (act s.atRise).settle := by
  rw [State.closing_of_awake ready.1 (State.not_deaf_of_ready ready),
    State.closeShort_of_ready ready]

theorem State.settle_of_not_live {s : State} (h : s.live = false) : s.settle = s :=
  if_neg (by simp [h])

theorem State.beginRestart_not_live (s : State) : s.beginRestart.live = false := by
  simp [State.live, State.awake, State.beginRestart]

/-- The operation at the port of a station that takes no part in the line, its verify over
(R29, R42). -/
theorem State.retirePrevious_of_not_live {s : State} (h : s.live = false) (previous : Option Nat) :
    s.retirePrevious previous = s := by
  cases previous with
  | none => rfl
  | some n => exact if_neg (by simp [h])

theorem State.noSpare_of_not_live {s : State} (h : s.live = false) (b : Nat) : s.noSpare b = s :=
  if_neg (by simp [h])

end Sys2Proof.Machine
end

section
/-! PROOF. RESTART and the interval before it takes effect (O6). -/

namespace Sys2Proof.Machine

/-! ## The sector write at a station that takes no part in the line (log 15, log 19) -/

section
variable {s : State} (idle : s.live = false)
include idle

theorem State.exec_verify_of_not_live {op : WriteOp} {n : Nat} {previous : Option Nat}
    (programError : Bool) (reading : Reading) (port : s.media.port = some (.write op))
    (stage : op.stage = .verifying n previous) :
    ∃ steps window,
      exec (.verify programError reading) s =
        .next ((s.judging steps window s.media.retired).afterVerify op previous n
          (verifyResult programError (readBack (lookupKey s.lastStep.media.sectors n) reading))) := by
  obtain ⟨steps, window, last⟩ := State.lastStep_of_verifying port stage
  have lastIdle : s.lastStep.live = false := by rw [last]; exact idle
  have same : s.lastStep = s.judging steps window s.media.retired := last
  refine ⟨steps, window, ?_⟩
  rw [State.exec_verify programError reading port stage,
    State.retirePrevious_of_not_live lastIdle, ← same]

/-- A relocation leaves the spare pool as it is (R29, R42). -/
theorem State.relocate_of_spare_not_live {op : WriteOp} {m : Nat} (previous : Option Nat)
    (written : Bool) (spare : s.nextSpare op = some m) :
    s.relocate op previous written =
      s.programCopy { op with taken := m :: op.taken } m previous := by
  rw [State.relocate_of_spare previous written spare,
    State.takeSpare_of_not_live (by simp [idle])]

theorem State.relocate_of_no_spare_not_live {op : WriteOp} (previous : Option Nat)
    (written : Bool) (spare : s.nextSpare op = none) :
    s.relocate op previous written = s.endWrite op none written previous := by
  rw [State.relocate_of_no_spare previous written spare, State.noSpare_of_not_live idle]

theorem State.leavePort_of_not_live (op : WriteOp) (written : Bool) (final : Option Nat) :
    s.leavePort op written final = s.freePort :=
  if_neg (by simp [idle])

end

/-- s with the write at the port and the mark owed for a sector, if any, as the step to come, over
the sectors as the steps before leave them. -/
def State.marking (s : State) (op : WriteOp) (owed : Option Nat) : State := { s with
  media := { s.media with
    port := some (.write op)
    steps := markSteps owed
    stepWindow := if owed = none then none else some 8
    sectors := match (generalizing := false) owed with
      | none => s.lastStep.media.sectors
      | some k => putKey s.lastStep.media.sectors k (.mark k) } }

theorem State.judging_usePort_markSteps (s : State) (steps : List MediaStep) (window : Window)
    (op : WriteOp) (owed : Option Nat) :
    (s.judging steps window s.media.retired).usePort (.write op) (markSteps owed) =
      s.marking op owed := by
  cases owed <;> rfl

section
variable {s : State} (idle : s.live = false) {op : WriteOp} {n : Nat} {previous : Option Nat}
  (programError : Bool) (reading : Reading) (port : s.media.port = some (.write op))
  (stage : op.stage = .verifying n previous)
include idle port stage

theorem State.exec_verify_good_of_not_live
    (good : verifyResult programError (readBack (lookupKey s.lastStep.media.sectors n) reading) =
      .good) :
    exec (.verify programError reading) s =
      .next (s.marking { op with stage := .ended true (some n) } previous) := by
  obtain ⟨steps, window, verify⟩ :=
    State.exec_verify_of_not_live idle programError reading port stage
  rw [verify, good, ← s.judging_usePort_markSteps steps window]
  rfl

theorem State.exec_verify_ends_of_not_live {result : VerifyResult}
    (judged : verifyResult programError (readBack (lookupKey s.lastStep.media.sectors n) reading) =
      result) (bad : result ≠ .good)
    (alone : 3 ≤ op.taken.length ∨ previous = none ∧ s.nextSpare op = none) :
    exec (.verify programError reading) s =
      .next (s.marking { op with stage := .ended (decide (result = .weak)) (some n) } previous) := by
  obtain ⟨steps, window, verify⟩ :=
    State.exec_verify_of_not_live idle programError reading port stage
  rw [verify, judged, ← s.judging_usePort_markSteps steps window]
  by_cases many : 3 ≤ op.taken.length
  · exact congrArg Host.Outcome.next (State.afterVerify_ends _ previous n bad many)
  · obtain ⟨rfl, none_free⟩ := alone.resolve_left many
    rw [State.afterVerify_relocates _ none n bad (Nat.not_le.mp many)]
    exact congrArg Host.Outcome.next (State.relocate_of_no_spare_not_live
      (s := s.judging steps window s.media.retired) idle (some n) _ none_free)

theorem State.exec_verify_relocates_of_not_live {result : VerifyResult}
    (judged : verifyResult programError (readBack (lookupKey s.lastStep.media.sectors n) reading) =
      result) (bad : result ≠ .good) (few : op.taken.length < 3) (unowed : previous = none) {m : Nat}
    (free : s.nextSpare op = some m) :
    exec (.verify programError reading) s = .next (State.programCopy
      (s.onMedia fun m => { m with sectors := s.lastStep.media.sectors })
      { op with taken := m :: op.taken } m (some n)) := by
  obtain ⟨steps, window, verify⟩ :=
    State.exec_verify_of_not_live idle programError reading port stage
  subst unowed
  rw [verify, judged, State.afterVerify_relocates _ none n bad few]
  exact congrArg Host.Outcome.next (State.relocate_of_spare_not_live
    (s := s.judging steps window s.media.retired) idle (some n) _ free)

theorem State.exec_verify_waits_of_not_live {result : VerifyResult}
    (judged : verifyResult programError (readBack (lookupKey s.lastStep.media.sectors n) reading) =
      result) (bad : result ≠ .good) (few : op.taken.length < 3) (owed : previous ≠ none) :
    exec (.verify programError reading) s =
      .next (s.marking { op with stage := .retiring n (decide (result = .weak)) } previous) := by
  obtain ⟨steps, window, verify⟩ :=
    State.exec_verify_of_not_live idle programError reading port stage
  rw [verify, judged, State.afterVerify_relocates _ previous n bad few,
    State.callRelocation_of_owed _ op previous n _ owed, s.judging_usePort_markSteps]

end

/-! ## The completions at such a station -/

theorem State.completeWrite_of_ended {s : State} {op : WriteOp} {written : Bool}
    {final : Option Nat} (port : s.media.port = some (.write op))
    (stage : op.stage = .ended written final) :
    s.completeWrite = s.leavePort op written final := by
  simp only [State.completeWrite, port, stage]

theorem State.completeWrite_of_spare {s : State} {op : WriteOp} {n : Nat} {written : Bool}
    (port : s.media.port = some (.write op)) (stage : op.stage = .retiring n written)
    (spare : s.nextSpare op ≠ none) : s.completeWrite = s := by
  simp only [State.completeWrite, port, stage, if_pos (Option.isSome_iff_ne_none.mpr spare)]

theorem State.completeWrite_of_no_spare {s : State} {op : WriteOp} {n : Nat} {written : Bool}
    (port : s.media.port = some (.write op)) (stage : op.stage = .retiring n written)
    (spare : s.nextSpare op = none) :
    s.completeWrite = (s.noSpare op.block).leavePort op written (some n) := by
  simp [State.completeWrite, port, stage, spare]

/-- Settles O6: by the commands in their order, and for the sector write by its stage and by the
result of its verify. -/
theorem restartWaitsForThePort : Obligations.RestartWaitsForThePort := by
  refine ⟨fun s ready => ?_, fun s awake deaf => ?_, fun straps s => ⟨fun released waiting free => ?_,
    fun stays => ?_⟩, fun s => ⟨fun idle => ⟨fun request sector v reading port => ?_,
      fun b sector v reading port => ?_, fun op written final port stage => ?_,
      fun op n written x port stage steps => ⟨fun m free => ⟨?_, ?_, ?_⟩, fun none_free => ⟨?_, ?_⟩⟩,
      fun op n previous programError reading port stage => ?_⟩,
    fun asleep => ⟨fun n reading active port => ?_, fun n programError active port => ?_⟩,
    fun released halted => ?_⟩⟩
  · have restarts : exec .restart s = .next (s.closing State.beginRestart) := rfl
    rw [restarts, State.closing_of_ready ready,
      State.settle_of_not_live (State.beginRestart_not_live _)]
    rfl
  · have restarts : exec .restart s = .next (s.closing State.beginRestart) := rfl
    rw [restarts, State.closing_of_awake awake deaf,
      State.settle_of_not_live (State.beginRestart_not_live _)]
    have short : s.client.eventsShort.completions = s.client.completions ∧
        s.client.eventsShort.outcome = s.client.outcome ∧
        s.client.eventsShort.tag = s.client.tag := by
      unfold ClientPort.eventsShort
      split <;> simp
    exact ⟨_, rfl, rfl, rfl, rfl, short.1, short.2.1, short.2.2, rfl, rfl, rfl, rfl, rfl, rfl, rfl⟩
  · have starts : exec (.restartTakesEffect straps) s = .next (s.startUp straps) :=
      congrArg Host.Outcome.next (if_pos (by simp [released, waiting, free]))
    exact ⟨_, starts, s.startUp_cleared straps, s.startUp_mounting straps⟩
  · refine congrArg Host.Outcome.next (if_neg ?_)
    rcases stays with busy | running
    · simp [busy]
    · simp [running]
  · simp only [exec, execSectorReadCompletion, State.completeRead, port, idle]
    rfl
  · simp only [exec, execScrubReadCompletion, State.completeScrub, port, idle]
    rfl
  · exact congrArg Host.Outcome.next ((State.completeWrite_of_ended port stage).trans
      (State.leavePort_of_not_live idle op written final))
  · rw [State.answerStep_mark s port stage steps free, State.takeSpare_of_not_live (by simp [idle])]
    rfl
  · have moved := State.answerStep_mark s port stage steps free
    exact State.exec_verify_answerStep steps
      (op := { op with stage := .verifying m (some n), taken := m :: op.taken })
      (by rw [moved]; rfl) rfl (y := .program m (.copy op.block op.version op.data)) (z := .read m)
      (by rw [moved]; rfl)
  · exact congrArg Host.Outcome.next
      (State.completeWrite_of_spare port stage (ne_of_eq_of_ne free (by simp)))
  · have none_free : s.nextSpare op = none := none_free
    simp [State.answerStep, State.afterMark, steps, port, stage, none_free]
  · refine congrArg Host.Outcome.next ((State.completeWrite_of_no_spare port stage none_free).trans ?_)
    rw [State.noSpare_of_not_live idle]
    exact State.leavePort_of_not_live idle op written _
  · refine ⟨fun good => State.exec_verify_good_of_not_live idle _ _ port stage good,
      fun bad few unowed m free =>
        State.exec_verify_relocates_of_not_live idle _ _ port stage rfl bad few unowed free,
      fun bad few owed =>
        State.exec_verify_waits_of_not_live idle _ _ port stage rfl bad few owed,
      fun weak alone =>
        State.exec_verify_ends_of_not_live idle _ _ port stage weak (by simp) alone,
      fun failed alone =>
        State.exec_verify_ends_of_not_live idle _ _ port stage failed (by simp) alone⟩
  · simp only [exec, execScan, port, asleep]
    rfl
  · simp only [exec, execMarking, port, asleep]
    rfl
  · refine (congrArg Host.Outcome.next (if_pos released)).trans (congrArg Host.Outcome.next ?_)
    unfold State.failPort
    split
    · next awake =>
      exact if_pos (halted.resolve_left (by simp [awake]))
    · rfl

end Sys2Proof.Machine
end

section
/-! PROOF. What the finish of an entry leaves, folds over the entries, and the completions of the
media port (O15 to O18). -/

namespace Sys2Proof.Machine

/-! ## Folds over the entries of a table -/

/-- Where one entry alone acts, and does so once, the fold over the table is its action. -/
theorem foldl_finRange_of_unique {σ : Type} {n : Nat} (f : σ → Fin n → σ) (s : σ) (i : Fin n)
    (before : ∀ j, j ≠ i → f s j = s) (after : ∀ j, j ≠ i → f (f s i) j = f s i) :
    (List.finRange n).foldl f s = f s i := by
  have skip : ∀ (l : List (Fin n)) (t : σ), (∀ j, j ∈ l → f t j = t) → l.foldl f t = t := by
    intro l t idle
    induction l with
    | nil => rfl
    | cons j l ih =>
      rw [List.foldl_cons, idle j List.mem_cons_self]
      exact ih fun k hk => idle k (List.mem_cons_of_mem j hk)
  obtain ⟨pre, post, split⟩ := List.append_of_mem (List.mem_finRange i)
  have nodup : (pre ++ i :: post).Nodup := split ▸ List.nodup_finRange n
  have apart : i ∉ pre ∧ i ∉ post := by
    rw [List.nodup_middle, List.nodup_cons, List.mem_append, not_or] at nodup
    exact nodup.1
  rw [split, List.foldl_append, List.foldl_cons, skip pre s fun j hj => before j ?_,
    skip post _ fun j hj => after j ?_]
  · rintro rfl
    exact apart.2 hj
  · rintro rfl
    exact apart.1 hj

/-- Where no entry acts, nor does the fold over the table. -/
theorem foldl_finRange_of_idle {σ : Type} {n : Nat} (f : σ → Fin n → σ) (s : σ)
    (idle : ∀ j, f s j = s) : (List.finRange n).foldl f s = s := by
  induction List.finRange n with
  | nil => rfl
  | cons j l ih => rw [List.foldl_cons, idle, ih]

/-- Entries that act each on itself alone, by what all leave as it was, act one by one. -/
theorem foldl_finRange_get {σ ε κ : Type} {n : Nat} (f : σ → Fin n → σ) (entry : σ → Fin n → ε)
    (view : σ → κ) (g : κ → Fin n → ε → ε)
    (own : ∀ s i, entry (f s i) i = g (view s) i (entry s i))
    (other : ∀ s i j, i ≠ j → entry (f s i) j = entry s j)
    (same : ∀ s i, view (f s i) = view s) (s : σ) (i : Fin n) :
    entry ((List.finRange n).foldl f s) i = g (view s) i (entry s i) := by
  have apart : ∀ (l : List (Fin n)) (t : σ), i ∉ l → entry (l.foldl f t) i = entry t i := by
    intro l
    induction l with
    | nil => exact fun _ _ => rfl
    | cons j l ih =>
      intro t hi
      rw [List.mem_cons, not_or] at hi
      rw [List.foldl_cons, ih _ hi.2, other t j i (Ne.symm hi.1)]
  obtain ⟨pre, post, split⟩ := List.append_of_mem (List.mem_finRange i)
  have nodup : (pre ++ i :: post).Nodup := split ▸ List.nodup_finRange n
  rw [List.nodup_middle, List.nodup_cons, List.mem_append, not_or] at nodup
  rw [split, List.foldl_append, List.foldl_cons, apart post _ nodup.1.2, own,
    apart pre s nodup.1.1, foldl_keeps view f same]

/-! ## The finish of a read and of a proposal (R125, R146) -/

/-- A read entry that has finished. -/
def ReadEntry.ended (e : ReadEntry) (r : Result) : ReadEntry :=
  { e with state := .finished, result := some r, queryWindow := none, fetchWindow := none
           backOff := none, frames := [], request := none }

/-- A proposal entry that has finished. -/
def Proposal.ended (p : Proposal) (r : Result) (winning : Option Version) : Proposal :=
  { p with state := .finished, result := some r, winning := winning, window := none, frames := [] }

section
variable {s : State}

theorem State.finishRead_of_not_running {i : Fin 4} (r : Result) (v : Version) (d : Data)
    (h : (s.readEntry i).running = false) : s.finishRead i r v d = s := if_neg (by simp [h])

theorem State.finishProposal_of_not_running {i : Fin 8} (r : Result) (w : Option Version)
    (h : (s.proposal i).running = false) : s.finishProposal i r w = s := if_neg (by simp [h])

theorem State.readEntry_of {t : State} (h : t.reads = s.reads) (i : Fin 4) :
    t.readEntry i = s.readEntry i := by
  simp [State.readEntry, h]

theorem State.proposal_of {t : State} (h : t.writes = s.writes) (i : Fin 8) :
    t.proposal i = s.proposal i := by
  simp [State.proposal, h]

theorem State.readEntry_finishRead {i : Fin 4} (r : Result) (v : Version) (d : Data)
    (running : (s.readEntry i).running = true) (j : Fin 4) :
    (s.finishRead i r v d).readEntry j =
      if i = j then (s.readEntry i).ended r else s.readEntry j := by
  rw [State.finishRead_of_running r v d running, ← State.readEntry_setRead]
  exact State.readEntry_of (by simp [ReadEntry.ended]) j

theorem State.completions_finishRead {i : Fin 4} (r : Result) (v : Version) (d : Data)
    (running : (s.readEntry i).running = true) :
    (s.finishRead i r v d).client.completions =
      s.client.completions ++ [.read (s.readEntry i).tag r v s.member.phase d] := by
  rw [State.finishRead_of_running r v d running]
  simp

theorem State.proposal_finishProposal {i : Fin 8} (r : Result) (w : Option Version)
    (running : (s.proposal i).running = true) (j : Fin 8) :
    (s.finishProposal i r w).proposal j =
      if i = j then (s.proposal i).ended r w else s.proposal j := by
  rw [State.finishProposal_of_running r w running, ← State.proposal_setProposal]
  exact State.proposal_of (by simp [Proposal.ended]) j

theorem State.completions_finishProposal {i : Fin 8} (r : Result) (w : Option Version)
    (running : (s.proposal i).running = true) :
    (s.finishProposal i r w).client.completions =
      s.client.completions ++
        [.write (s.proposal i).tag r (w.getD (s.proposal i).version) s.member.phase] := by
  rw [State.finishProposal_of_running r w running]
  simp

end

theorem ReadEntry.running_of_reading {e : ReadEntry} (h : e.state = .reading) :
    e.running = true := by
  simp [ReadEntry.running, h]

end Sys2Proof.Machine
end

section
/-! PROOF. The completions of the media port and the report of a read (O15 to O18). -/

namespace Sys2Proof.Machine

/-! ## The write's completion (R38, R39) -/

section
variable {s : State} {op : WriteOp} {e : StagingEntry} {rest : List StagingEntry}

/-- The station with the head off the staging queue (R25). -/
def State.dropHead (s : State) (rest : List StagingEntry) : State :=
  s.onStore fun st => { st with staging := rest }

theorem State.applyWrite_of_written (staging : s.store.staging = e :: rest) (n : Nat) :
    s.applyWrite op true (some n) =
      (s.dropHead rest).written op n (rest.any fun x => decide (x.block = op.block)) := by
  simp only [State.applyWrite, staging]
  rfl

theorem State.applyWrite_of_failed (staging : s.store.staging = e :: rest)
    {written : Bool} {final : Option Nat} (failed : written = false ∨ final = none) :
    s.applyWrite op written final = (s.dropHead rest).writeFailed op final
      (rest.any fun x => decide (x.block = op.block)) e.source := by
  simp only [State.applyWrite, staging]
  cases written <;> cases final <;> simp_all [State.dropHead]

theorem State.written_keeps (n : Nat) (another : Bool) :
    let t := s.written op n another
    t.store.staging = s.store.staging ∧ t.store.clock = s.store.clock ∧ t.media = s.media ∧
      t.line = s.line ∧ t.writes = s.writes ∧ t.reads = s.reads ∧ t.member = s.member ∧
      t.client = s.client ∧ t.repair = s.repair :=
  ⟨rfl, rfl, rfl, rfl, rfl, rfl, rfl, rfl, rfl⟩

theorem State.writeFailed_keeps (final : Option Nat) (another : Bool) (source : Source) :
    let t := s.writeFailed op final another source
    t.store.staging = s.store.staging ∧ t.store.clock = s.store.clock ∧
      t.media.port = s.media.port ∧ t.media.steps = s.media.steps ∧
      t.media.sectors = s.media.sectors ∧ t.media.spares = s.media.spares ∧
      t.media.retired = s.media.retired ∧ t.line = s.line ∧ t.writes = s.writes ∧
      t.reads = s.reads ∧ t.member = s.member := by
  unfold State.writeFailed
  dsimp only
  split
  · exact ⟨rfl, rfl, rfl, rfl, rfl, rfl, rfl, rfl, rfl, rfl, rfl⟩
  · have steps : ∀ sector, (s.loseBlock op.block sector .write).media.steps = s.media.steps :=
      fun _ => rfl
    split <;> simp [steps]

/-- The sector a failed write leaves in the entry (R39). -/
def State.failedSector (s : State) (op : WriteOp) (final : Option Nat) : Option Nat :=
  if final.isSome then final else (s.entryOf op.block).sector

theorem State.writeFailed_of_another (final : Option Nat) (source : Source) :
    s.writeFailed op final true source = s.setEntry op.block
      { s.entryOf op.block with sector := s.failedSector op final, mediaVersion := .nil } := rfl

theorem State.writeFailed_of_repair (final : Option Nat) :
    s.writeFailed op final false .repair =
      s.loseBlock op.block (s.failedSector op final) .write := rfl

theorem State.writeFailed_of_last (final : Option Nat) {source : Source} (h : source ≠ .repair) :
    s.writeFailed op final false source =
      (s.loseBlock op.block (s.failedSector op final) .write).handToRepair op.block := if_neg h

end

theorem State.handToRepair_of_room {s : State} (b : Nat) (room : s.repair.list.length < 32) :
    s.handToRepair b = s.onRepair fun r => { r with list := r.list ++ [b] } := if_pos room

theorem State.handToRepair_of_full {s : State} (b : Nat) (full : 32 ≤ s.repair.list.length) :
    s.handToRepair b = s.raise .repairFull (.block b) .none := if_neg (Nat.not_lt.mpr full)

theorem State.entryOf_handToRepair (s : State) (b k : Nat) :
    (s.handToRepair b).entryOf k = s.entryOf k := State.entryOf_of (by simp) k

/-- The hand-off of a LOST block to the repair list, or the event at a full one (R56). -/
theorem State.handToRepair_spec (s : State) (b : Nat) :
    (s.repair.list.length < 32 → (s.handToRepair b).repair.list = s.repair.list ++ [b] ∧
      (s.handToRepair b).client = s.client) ∧
    (32 ≤ s.repair.list.length → (s.handToRepair b).repair.list = s.repair.list ∧
      (s.handToRepair b).client = s.client.raise .repairFull (.block b) .none) := by
  refine ⟨fun room => ?_, fun full => ?_⟩
  · rw [State.handToRepair_of_room b room]
    exact ⟨rfl, rfl⟩
  · rw [State.handToRepair_of_full b full]
    exact ⟨rfl, rfl⟩

theorem State.leavePort_of_live {s : State} (live : s.live = true) (op : WriteOp) (written : Bool)
    (final : Option Nat) :
    s.leavePort op written final = (s.freePort.applyWrite op written final).settle := if_pos live

theorem State.exec_writeCompletion_of_ended {s : State} {op : WriteOp} {written : Bool}
    {final : Option Nat} (live : s.live = true) (port : s.media.port = some (.write op))
    (stage : op.stage = .ended written final) :
    exec .writeCompletion s = .next (s.freePort.applyWrite op written final).settle := by
  refine congrArg Host.Outcome.next ((State.completeWrite_of_ended port stage).trans ?_)
  exact State.leavePort_of_live live op written final

theorem State.entryOf_written {s : State} {rest : List StagingEntry} (wf : mapWf s.store.map = true)
    (op : WriteOp) (n : Nat) (another : Bool) (b : Nat) :
    ((s.dropHead rest).written op n another).entryOf b = if op.block = b then
      ⟨some n, op.version, (s.entryOf op.block).version,
        if another then (s.entryOf op.block).condition else .clean⟩ else s.entryOf b :=
  State.entryOf_setEntry (s.dropHead rest) op.block b _ (.inr wf)

theorem not_any_block {rest : List StagingEntry} {b : Nat}
    (h : ¬ ∃ x, x ∈ rest ∧ x.block = b) : (rest.any fun x => decide (x.block = b)) = false := by
  rw [← Bool.not_eq_true, any_block_iff]
  exact h

/-- What a completed write leaves of the station but for the entry of its block, the repair list and
the scrub list. -/
theorem State.applyWrite_keeps {s : State} {e : StagingEntry} {rest : List StagingEntry}
    (staging : s.store.staging = e :: rest) (op : WriteOp) (written : Bool) (final : Option Nat) :
    let t := s.applyWrite op written final
    t.store.staging = rest ∧ t.store.clock = s.store.clock ∧ t.media.port = s.media.port ∧
      t.media.steps = s.media.steps ∧ t.media.sectors = s.media.sectors ∧
      t.media.spares = s.media.spares ∧ t.media.retired = s.media.retired ∧ t.line = s.line ∧
      t.writes = s.writes ∧ t.reads = s.reads ∧ t.member = s.member := by
  by_cases failed : written = false ∨ final = none
  · rw [State.applyWrite_of_failed staging failed]
    exact State.writeFailed_keeps final _ _
  · obtain ⟨rfl, n, rfl⟩ : written = true ∧ ∃ n, final = some n := by
      rw [not_or, Bool.not_eq_false, ← ne_eq, Option.ne_none_iff_exists'] at failed
      exact failed
    rw [State.applyWrite_of_written staging n]
    exact ⟨rfl, rfl, rfl, rfl, rfl, rfl, rfl, rfl, rfl, rfl, rfl⟩

/-- Only the entry of the block written changes. -/
theorem State.entryOf_applyWrite_of_ne {s : State} {e : StagingEntry} {rest : List StagingEntry}
    (staging : s.store.staging = e :: rest) (wf : mapWf s.store.map = true) (op : WriteOp)
    (written : Bool) (final : Option Nat) {b : Nat} (h : b ≠ op.block) :
    (s.applyWrite op written final).entryOf b = s.entryOf b := by
  by_cases failed : written = false ∨ final = none
  · rw [State.applyWrite_of_failed staging failed]
    unfold State.writeFailed
    dsimp only
    have others : ∀ sector, ((s.dropHead rest).loseBlock op.block sector .write).entryOf b =
        s.entryOf b := fun sector => by
      rw [State.entryOf_loseBlock, if_neg (Ne.symm h)]
      rfl
    split
    · rw [State.entryOf_setEntry (s.dropHead rest) _ _ _ (.inr wf), if_neg (Ne.symm h)]
      rfl
    · split
      · exact others _
      · rw [State.entryOf_handToRepair]
        exact others _
  · obtain ⟨rfl, n, rfl⟩ : written = true ∧ ∃ n, final = some n := by
      rw [not_or, Bool.not_eq_false, ← ne_eq, Option.ne_none_iff_exists'] at failed
      exact failed
    rw [State.applyWrite_of_written staging n]
    rw [State.entryOf_written wf, if_neg (Ne.symm h)]

/-- Settles O15: by the result of the write, by whether a newer version of the block is staged, and
by the room of the repair list. -/
theorem writeCompletionUpdatesTheMap : Obligations.WriteCompletionUpdatesTheMap := by
  refine ⟨fun op n written s live port stage => ⟨fun spare => ?_, fun spare => ?_⟩,
    fun op written final e rest s live wf port stage staging => ?_⟩
  · exact congrArg Host.Outcome.next (State.completeWrite_of_spare port stage spare)
  · refine congrArg Host.Outcome.next ((State.completeWrite_of_no_spare port stage spare).trans ?_)
    rw [State.noSpare_of_live live, State.completeWrite_of_ended (op :=
      { op with stage := .ended written (some n) }) rfl rfl]
    exact (State.leavePort_of_live (by exact live) op written (some n)).trans
      (State.leavePort_of_live (by exact live) _ written (some n)).symm
  · obtain ⟨k1, k2, k3, k4, k5, k6, k7, k8, k9, k10, k11⟩ :=
      State.applyWrite_keeps (s := s.freePort) staging op written final
    refine ⟨_, State.exec_writeCompletion_of_ended live port stage, k1, k2, k3, k4, k5, k6, k7, k8,
      k9, k10, k11, fun b h => State.entryOf_applyWrite_of_ne (s := s.freePort) staging wf op
        written final h, ?_, ?_, ?_⟩
    · rintro n rfl rfl
      rw [State.applyWrite_of_written (s := s.freePort) staging n]
      refine ⟨rfl, rfl, fun another => ?_, fun last => ?_⟩
      · rw [(any_block_iff _ _).mpr another, State.entryOf_written (s := s.freePort) wf, if_pos rfl]
        rfl
      · rw [not_any_block last, State.entryOf_written (s := s.freePort) wf, if_pos rfl]
        rfl
    · rintro rfl another
      rw [State.applyWrite_of_failed (s := s.freePort) staging (.inl rfl),
        (any_block_iff _ _).mpr another, State.writeFailed_of_another]
      refine ⟨rfl, rfl, ?_⟩
      rw [State.entryOf_setEntry (s.freePort.dropHead rest) _ _ _ (.inr wf), if_pos rfl]
      rfl
    · rintro rfl last
      rw [State.applyWrite_of_failed (s := s.freePort) staging (.inl rfl), not_any_block last]
      by_cases source : e.source = .repair
      · rw [source, State.writeFailed_of_repair]
        refine ⟨?_, ?_, fun _ => ⟨rfl, rfl⟩, fun h => absurd rfl h, fun h => absurd rfl h⟩
        · rw [State.entryOf_loseBlock, if_pos rfl]
          rfl
        · simp [State.scrub_loseBlock]
      · rw [State.writeFailed_of_last final source]
        obtain ⟨room, full⟩ := State.handToRepair_spec ((s.freePort.dropHead rest).loseBlock op.block
          ((s.freePort.dropHead rest).failedSector op final) .write) op.block
        refine ⟨?_, ?_, fun h => absurd h source, fun _ => room, fun _ => full⟩
        · rw [State.entryOf_handToRepair, State.entryOf_loseBlock, if_pos rfl]
          rfl
        · simp [State.scrub_loseBlock]

/-! ## The completions of reads (R47, R50, R53, R55) -/

/-- An offer that is not accepted leaves the station as it was (R10). -/
theorem State.offer_state {s u : State} {b : Nat} {v : Version} {d : Data} {source : Source}
    {a : Answer} (h : s.offer b v d source = (u, a)) (ha : a ≠ .accept) : u = s := by
  cases judged : s.judge b v source with
  | accept =>
    rw [State.offer_of_judge_accept d judged] at h
    exact absurd (congrArg Prod.snd h).symm ha
  | duplicate | stale _ | busy =>
    rw [State.offer_of_judge_ne_accept d judged (by simp)] at h
    exact (congrArg Prod.fst h).symm

theorem State.appendScrub_of_room {s : State} (b : Nat) (room : s.media.scrub.length < 16) :
    s.appendScrub b = s.onMedia fun m => { m with scrub := m.scrub ++ [b] } := if_pos room

theorem State.appendScrub_of_full {s : State} (b : Nat) (full : 16 ≤ s.media.scrub.length) :
    s.appendScrub b = s.raise .scrubFull (.block b) .none := if_neg (Nat.not_lt.mpr full)

/-- A SCRUB offer, and the scrub list where it finds no room (R50, R53). -/
theorem State.scrubOffer_spec {s u : State} {b : Nat} {v : Version} {d : Data} {a : Answer}
    (h : s.offer b v d .scrub = (u, a)) :
    (a ≠ .busy → s.scrubOffer b v d = u) ∧
    (a = .busy → s.media.scrub.length < 16 →
      s.scrubOffer b v d = u.onMedia fun m => { m with scrub := m.scrub ++ [b] }) ∧
    (a = .busy → 16 ≤ s.media.scrub.length →
      s.scrubOffer b v d = u.raise .scrubFull (.block b) .none) := by
  refine ⟨fun done => ?_, fun busy room => ?_, fun busy full => ?_⟩
  · cases a with
    | busy => exact absurd rfl done
    | accept | duplicate | stale _ => simp only [State.scrubOffer, h]
  all_goals
    subst busy
    obtain rfl := State.offer_state h (by simp)
    simp only [State.scrubOffer, h]
  · exact State.appendScrub_of_room b room
  · exact State.appendScrub_of_full b full

/-- What becomes of a CLEAN block whose read is UNREADABLE (R55, R56). -/
theorem State.lostByRead_spec (s : State) (b : Nat) :
    let u := s.lostByRead b
    u.entryOf b = { s.entryOf b with mediaVersion := .nil, condition := .lost } ∧
    (∀ k, k ≠ b → u.entryOf k = s.entryOf k) ∧
    u.media = { s.media with scrub := s.media.scrub.filter (· ≠ b) } ∧
    (s.repair.list.length < 32 → u.repair.list = s.repair.list ++ [b] ∧
      u.client = s.client.raise .blockLost (.block b) (.lost .read)) ∧
    (32 ≤ s.repair.list.length → u.repair.list = s.repair.list ∧
      u.client = (s.client.raise .blockLost (.block b) (.lost .read)).raise .repairFull
        (.block b) .none) := by
  obtain ⟨room, full⟩ :=
    State.handToRepair_spec (s.loseBlock b (s.entryOf b).sector .read) b
  refine ⟨?_, fun k hk => ?_, ?_, room, full⟩
  · rw [State.lostByRead, State.entryOf_handToRepair, State.entryOf_loseBlock, if_pos rfl]
  · rw [State.lostByRead, State.entryOf_handToRepair, State.entryOf_loseBlock,
      if_neg (Ne.symm hk)]
  · rw [State.lostByRead, ((State.handToRepair_keeps _ b).2.2.2.1)]
    rfl

section
variable {s : State} {b : Nat} {v : Version}

theorem State.applyRead_of_not_clean (h : (s.entryOf b).condition ≠ .clean) (o : ReadOutcome) :
    s.applyRead b v o = s := if_neg h

theorem State.applyRead_of_sound {d : Data} {o : ReadOutcome} (h : o = .clean d ∨ o = .corrected d) :
    s.applyRead b v o = s := by
  rcases h with rfl | rfl <;> simp [State.applyRead]

theorem State.applyRead_of_listed (h : b ∈ s.media.scrub) (d : Data) :
    s.applyRead b v (.weak d) = s := by
  simp [State.applyRead, h]

theorem State.applyRead_of_weak (clean : (s.entryOf b).condition = .clean)
    (h : b ∉ s.media.scrub) (d : Data) : s.applyRead b v (.weak d) = s.scrubOffer b v d := by
  simp [State.applyRead, clean, h]

theorem State.applyRead_of_unreadable (clean : (s.entryOf b).condition = .clean) :
    s.applyRead b v .unreadable = s.lostByRead b := if_pos clean

end

theorem State.exec_sectorReadCompletion {s : State} {request : ReadRequest} {sector : Nat}
    {v : Version} {o : ReadOutcome} (reading : Reading) (live : s.live = true)
    (port : s.media.port = some (.sectorRead request sector v))
    (outcome : readOutcome request.block v (readBack (s.sectorContent sector) reading) = o) :
    exec (.sectorReadCompletion reading) s = .next
      ((s.freePort.applyRead request.block v o).report request (o.report v)).settle := by
  subst outcome
  show Host.Outcome.next (s.completeRead reading) = _
  simp only [State.completeRead, port]
  rw [if_pos live]

/-- Settles O16: by the outcome of the read and the condition of its block. -/
theorem sectorReadCompletes : Obligations.SectorReadCompletes := by
  intro reading request sector v s live port b m o f
  have completes := State.exec_sectorReadCompletion (o := o) reading live port rfl
  refine ⟨fun d sound => ?_, fun d weak other => ?_, fun d u a weak clean unlisted offered => ?_,
    fun unreadable other => ?_, fun unreadable clean => ?_⟩
  · rw [completes, State.applyRead_of_sound sound]
    rcases sound with same | same <;> rw [same] <;> rfl
  · have unchanged : s.freePort.applyRead b v (.weak d) = s.freePort :=
      other.elim (fun h => State.applyRead_of_not_clean (s := s.freePort) h _)
        fun h => State.applyRead_of_listed (s := s.freePort) h d
    rw [completes, weak, unchanged]
    rfl
  · obtain ⟨done, room, full⟩ := State.scrubOffer_spec offered
    have offers : s.freePort.applyRead b v (.weak d) = f.scrubOffer b v d :=
      State.applyRead_of_weak (s := s.freePort) clean unlisted d
    rw [completes, weak, offers]
    refine ⟨fun h => ?_, fun h hr => ?_, fun h hf => ?_⟩
    · rw [done h]
      rfl
    · rw [room h hr]
      rfl
    · rw [full h hf]
      rfl
  · rw [completes, unreadable, State.applyRead_of_not_clean (s := s.freePort) other]
    rfl
  · rw [completes, unreadable, State.applyRead_of_unreadable (s := s.freePort) clean]
    exact ⟨_, rfl, s.freePort.lostByRead_spec b⟩

theorem State.exec_scrubReadCompletion {s : State} {b sector : Nat} {v : Version}
    {o : ReadOutcome} (reading : Reading) (live : s.live = true)
    (port : s.media.port = some (.scrubRead b sector v))
    (outcome : readOutcome b v (readBack (s.sectorContent sector) reading) = o) :
    exec (.scrubReadCompletion reading) s = .next (s.freePort.applyScrub b v o).settle := by
  subst outcome
  show Host.Outcome.next (s.completeScrub reading) = _
  simp only [State.completeScrub, port]
  rw [if_pos live]

theorem State.applyScrub_of_data {s : State} {b : Nat} {v : Version} {o : ReadOutcome} {d : Data}
    (h : o.data = some d) : s.applyScrub b v o = s.scrubOffer b v d := by
  simp [State.applyScrub, h]

theorem State.applyScrub_of_unreadable (s : State) (b : Nat) (v : Version) :
    s.applyScrub b v .unreadable =
      if (s.entryOf b).condition = .clean then s.lostByRead b else s := rfl

/-- Settles O17: by the outcome of the read and the answer to its offer. -/
theorem scrubReadCompletes : Obligations.ScrubReadCompletes := by
  intro reading b sector v s live port m o f
  have completes := State.exec_scrubReadCompletion (o := o) reading live port rfl
  refine ⟨fun d u a readable offered => ?_, fun unreadable other => ?_,
    fun unreadable clean => ?_⟩
  · obtain ⟨done, room, full⟩ := State.scrubOffer_spec offered
    rw [completes, State.applyScrub_of_data readable]
    refine ⟨fun h => ?_, fun h hr => ?_, fun h hf => ?_⟩
    · exact congrArg (Host.Outcome.next ∘ State.settle) (done h)
    · exact congrArg (Host.Outcome.next ∘ State.settle) (room h hr)
    · exact congrArg (Host.Outcome.next ∘ State.settle) (full h hf)
  · rw [completes, unreadable, State.applyScrub_of_unreadable, if_neg (by exact other)]
    rfl
  · rw [completes, unreadable, State.applyScrub_of_unreadable, if_pos (by exact clean)]
    exact ⟨_, rfl, s.freePort.lostByRead_spec b⟩

/-! ## The report of a client read (R145) -/

section
variable {s : State} {i : Fin 4}

theorem State.finishFromMap_of_staged
    (h : (s.entryOf (s.readEntry i).block).condition = .staged) :
    s.finishFromMap i = s.finishRead i .ok (s.entryOf (s.readEntry i).block).version
      (s.stagedData (s.readEntry i).block) := by
  simp [State.finishFromMap, h]

theorem State.finishFromMap_of_lost
    (h : (s.entryOf (s.readEntry i).block).condition = .lost) :
    s.finishFromMap i = s.finishRead i .blockLost (s.entryOf (s.readEntry i).block).version
      Data.zero := by
  simp [State.finishFromMap, h]

theorem State.finishFromMap_of_unwritten
    (h : (s.entryOf (s.readEntry i).block).condition = .unwritten) :
    s.finishFromMap i = s.finishRead i .unwritten .nil Data.zero := by
  simp [State.finishFromMap, h]

end

theorem State.reportClientAt_of_other {s : State} {id : Nat} {i : Fin 4} (report : MediaReport)
    (h : (s.readEntry i).request ≠ some id) : s.reportClientAt id report i = s :=
  if_neg fun both => h both.2

theorem State.reportClientAt_of_asker {s : State} {id : Nat} {i : Fin 4}
    (reading : (s.readEntry i).state = .reading) (asked : (s.readEntry i).request = some id) :
    (∀ v d, s.reportClientAt id (.readable v d) i = s.finishRead i .ok v d) ∧
    ∀ report, (∀ v d, report ≠ .readable v d) →
      s.reportClientAt id report i = s.finishFromMap i := by
  refine ⟨fun v d => if_pos ⟨reading, asked⟩, fun report other => ?_⟩
  cases report with
  | readable v d => exact absurd rfl (other v d)
  | declined | unreadable => exact if_pos ⟨reading, asked⟩

/-- The report reaches the one read that asked for it, which finishes by it. -/
theorem State.reportClient_of_finish {s : State} {id : Nat} {report : MediaReport} {i : Fin 4}
    {r : Result} {v : Version} {d : Data} (running : (s.readEntry i).running = true)
    (others : ∀ j, j ≠ i → (s.readEntry j).request ≠ some id)
    (acts : s.reportClientAt id report i = s.finishRead i r v d) :
    s.reportClient id report = s.finishRead i r v d := by
  rw [← acts]
  refine foldl_finRange_of_unique (fun s i => s.reportClientAt id report i) s i
    (fun j hj => State.reportClientAt_of_other report (others j hj)) fun j hj => ?_
  refine State.reportClientAt_of_other report ?_
  show ((s.reportClientAt id report i).readEntry j).request ≠ some id
  rw [acts, State.readEntry_finishRead r v d running, if_neg (Ne.symm hj)]
  exact others j hj

/-- What the finish of a read shows the client, and all that it leaves (R146). -/
theorem State.finishRead_spec {s : State} {i : Fin 4} (r : Result) (v : Version) (d : Data)
    (running : (s.readEntry i).running = true) :
    let t := s.finishRead i r v d
    (t.readEntry i).state = .finished ∧ (t.readEntry i).result = some r ∧
      t.client.completions =
        s.client.completions ++ [.read (s.readEntry i).tag r v s.member.phase d] ∧
      (∀ j, j ≠ i → t.readEntry j = s.readEntry j) ∧ t.store = s.store ∧
      t.writes = s.writes ∧ t.repair.list = s.repair.list ∧ t.member = s.member := by
  have entries := State.readEntry_finishRead r v d running
  refine ⟨?_, ?_, State.completions_finishRead r v d running, fun j hj => ?_, by simp, by simp,
    by simp, by simp⟩
  · rw [entries, if_pos rfl]
    rfl
  · rw [entries, if_pos rfl]
    rfl
  · rw [entries, if_neg (Ne.symm hj)]

/-- Settles O18: the one read that asked finishes, by the report or by the map. -/
theorem reportFinishesTheRead : Obligations.ReportFinishesTheRead := by
  intro i id b report s reading asked others
  have running := ReadEntry.running_of_reading reading
  obtain ⟨readable, other⟩ := State.reportClientAt_of_asker reading asked
  intro e m t finished
  have finishes : ∀ {r v d}, s.reportClientAt id report i = s.finishRead i r v d →
      finished r v d := fun {r v d} acts => by
    have ended := State.finishRead_spec r v d running
    have same : t = s.finishRead i r v d := State.reportClient_of_finish running others acts
    rw [← same] at ended
    exact ended
  refine ⟨fun v d h => finishes (h ▸ readable v d), fun h => ⟨fun staged => ?_, fun lost => ?_,
    fun unwritten => ?_⟩⟩
  · exact finishes ((other report h).trans (State.finishFromMap_of_staged staged))
  · exact finishes ((other report h).trans (State.finishFromMap_of_lost lost))
  · exact finishes ((other report h).trans (State.finishFromMap_of_unwritten unwritten))

end Sys2Proof.Machine
end

section
/-! PROOF. Mount: the winner among copies, the decision of each block, the version clock, and the
end of mount (O8, O10 to O13). -/

namespace Sys2Proof.Machine

/-! ## The winner (R64) -/

/-- The four tests, written out. -/
theorem Candidate.beats_iff (a b : Candidate) :
    a.beats b = true ↔ newer a.version b.version = true ∨
      (a.version = b.version ∧ 4096 ≤ a.sector ∧
        (b.sector < 4096 ∨ a.corrected < b.corrected ∨
          (a.corrected = b.corrected ∧ b.sector < a.sector))) := by
  have spare : ∀ n, isSpare n = decide (4096 ≤ n) := fun _ => rfl
  by_cases ha : 4096 ≤ a.sector <;> by_cases hb : 4096 ≤ b.sector <;>
    simp [Candidate.beats, spare, ha, hb, Nat.not_lt.mpr, Nat.not_le.mp]

theorem Candidate.beats_trans {a b c : Candidate} (hab : a.beats b = true)
    (hbc : b.beats c = true) : a.beats c = true := by
  rw [Candidate.beats_iff] at *
  rcases hab with ab | ⟨ab, rest⟩
  · rcases hbc with bc | ⟨bc, -⟩
    · exact .inl (newer_trans ab bc)
    · exact .inl (bc ▸ ab)
  · rcases hbc with bc | ⟨bc, rest'⟩
    · exact .inl (ab ▸ bc)
    · exact .inr ⟨ab.trans bc, by omega⟩

/-- Of two copies at different sectors, not both home sectors, one wins. -/
theorem Candidate.beats_total {a b : Candidate} (sector : a.sector ≠ b.sector)
    (home : ¬ (a.sector < 4096 ∧ b.sector < 4096)) : a.beats b = true ∨ b.beats a = true := by
  rw [Candidate.beats_iff, Candidate.beats_iff]
  cases hab : newer a.version b.version with
  | true => exact .inl (.inl rfl)
  | false =>
    cases hba : newer b.version a.version with
    | true => exact .inr (.inl rfl)
    | false =>
      have same := Version.eq_of_not_newer hab hba
      simp only [same, true_and, Bool.false_eq_true, false_or]
      omega

theorem winner_of_ne_nil {l : List Candidate} (h : l ≠ []) : ∃ c, winner l = some c := by
  cases l with
  | nil => exact absurd rfl h
  | cons a rest =>
    unfold winner
    split
    · exact ⟨a, rfl⟩
    · split
      · exact ⟨_, rfl⟩
      · exact ⟨a, rfl⟩

/-- The winner wins over every other candidate, where no two share a sector and at most one is the
home sector's. -/
theorem winner_beats {l : List Candidate}
    (sectors : ∀ e ∈ l, ∀ f ∈ l, e.sector = f.sector → e = f)
    (homes : ∀ e ∈ l, ∀ f ∈ l, e.sector < 4096 → f.sector < 4096 → e = f) {c : Candidate}
    (h : winner l = some c) : ∀ d, d ∈ l → d = c ∨ c.beats d = true := by
  induction l generalizing c with
  | nil => cases h
  | cons a rest ih =>
    have below := @ih (fun e he f hf => sectors e (.tail a he) f (.tail a hf))
      (fun e he f hf => homes e (.tail a he) f (.tail a hf))
    unfold winner at h
    split at h
    · next lost =>
      have empty : rest = [] := by
        by_contra some_left
        obtain ⟨w, won⟩ := winner_of_ne_nil some_left
        simp [lost] at won
      obtain rfl := Option.some.inj h
      simp [empty]
    · next w won =>
      split at h
      · next wins =>
        obtain rfl := Option.some.inj h
        exact List.forall_mem_cons.mpr ⟨.inr wins, below won⟩
      · next loses =>
        obtain rfl := Option.some.inj h
        have hw := winner_mem won
        have first : w = a ∨ a.beats w = true := by
          by_contra neither
          rw [not_or] at neither
          refine (Candidate.beats_total (a := a) (b := w) (fun same => ?_) fun both => ?_).elim
            neither.2 loses
          · exact neither.1 (sectors w (.tail a hw) a (.head rest) same.symm)
          · exact neither.1 (homes w (.tail a hw) a (.head rest) both.2 both.1)
        refine List.forall_mem_cons.mpr ⟨.inl rfl, fun d hd => ?_⟩
        rcases first with rfl | beats
        · exact below won d hd
        · rcases below won d hd with rfl | further
          · exact .inr beats
          · exact .inr (Candidate.beats_trans beats further)

/-- Settles O10: by the order of the four tests, which is total on the candidates of a block. -/
theorem mountWinnerIsBest : Obligations.MountWinnerIsBest := by
  refine fun l => ⟨winner_of_ne_nil, fun sectors homes c won => ⟨winner_mem won, fun d hd => ?_⟩⟩
  rcases winner_beats sectors homes won d hd with same | beats
  · exact .inl same
  · exact .inr ((Candidate.beats_iff c d).mp beats)

/-! ## The decision of a block (R64 to R69) -/

theorem State.resolveBlock_of_winner {s : State} {spares : List (Nat × Candidate)} {b : Nat}
    {home : Finding} {c : Candidate} (won : winner (candidatesOf b home spares) = some c) :
    s.resolveBlock spares b home = s.resolveClean b home c := by
  simp [State.resolveBlock, won]

/-- The block becomes CLEAN before anything else follows from it (R64). -/
def State.listClean (s : State) (b : Nat) (c : Candidate) : State :=
  s.setEntry b ⟨some c.sector, c.version, c.version, .clean⟩

/-- A home sector that lost to a spare is retired (R66). -/
def State.decideHome (s : State) (b : Nat) (home : Finding) (c : Candidate) : State :=
  if isSpare c.sector then s.retireHome b home else s

/-- A WEAK winner is listed for scrub (R68). -/
def State.listWeak (s : State) (b : Nat) (c : Candidate) : State :=
  if 2 ≤ c.corrected then s.appendScrub b else s

theorem State.resolveClean_eq (s : State) (b : Nat) (home : Finding) (c : Candidate) :
    s.resolveClean b home c = ((s.listClean b c).decideHome b home c).listWeak b c := rfl

theorem State.entryOf_listClean (s : State) (b : Nat) (c : Candidate) (k : Nat) :
    (s.listClean b c).entryOf k =
      if b = k then ⟨some c.sector, c.version, c.version, .clean⟩ else s.entryOf k :=
  s.entryOf_setEntry b k _ (.inl (MapEntry.ne_unwritten (by simp)))

theorem State.retireHome_spec (s : State) (b : Nat) (home : Finding) :
    let t := s.retireHome b home
    t.store = s.store ∧ t.repair = s.repair ∧ t.client = s.client ∧
      t.media = { s.media with retired := addSorted s.media.retired b } ∧
      t.mount.marking = s.mount.marking ++ (if home = .mark then [] else [b]) := by
  unfold State.retireHome
  dsimp only
  split <;> simp

theorem State.decideHome_spec (s : State) (b : Nat) (home : Finding) (c : Candidate) :
    let t := s.decideHome b home c
    t.store = s.store ∧ t.repair = s.repair ∧ t.client = s.client ∧
      t.media.scrub = s.media.scrub ∧ t.media.spares = s.media.spares ∧
      (4096 ≤ c.sector → b ∈ t.media.retired ∧
        t.mount.marking = s.mount.marking ++ (if home = .mark then [] else [b])) ∧
      (c.sector < 4096 → t.media.retired = s.media.retired ∧
        t.mount.marking = s.mount.marking) := by
  obtain ⟨store, repair, client, media, marking⟩ := s.retireHome_spec b home
  by_cases spare : 4096 ≤ c.sector
  · have retires : s.decideHome b home c = s.retireHome b home := if_pos (decide_eq_true spare)
    rw [retires]
    refine ⟨store, repair, client, by rw [media], by rw [media], fun _ => ⟨?_, marking⟩,
      fun home => absurd spare (Nat.not_le.mpr home)⟩
    rw [media, mem_addSorted]
    exact .inr rfl
  · have stays : s.decideHome b home c = s := if_neg fun h => spare (of_decide_eq_true h)
    rw [stays]
    exact ⟨rfl, rfl, rfl, rfl, rfl, fun h => absurd h spare, fun _ => ⟨rfl, rfl⟩⟩

theorem State.listWeak_spec (s : State) (b : Nat) (c : Candidate) :
    let t := s.listWeak b c
    t.store = s.store ∧ t.repair = s.repair ∧ t.mount = s.mount ∧
      t.media.retired = s.media.retired ∧ t.media.spares = s.media.spares ∧
      (c.corrected < 2 → t.media.scrub = s.media.scrub ∧ t.client = s.client) ∧
      (2 ≤ c.corrected → s.media.scrub.length < 16 →
        t.media.scrub = s.media.scrub ++ [b] ∧ t.client = s.client) ∧
      (2 ≤ c.corrected → 16 ≤ s.media.scrub.length →
        t.media.scrub = s.media.scrub ∧
        t.client = s.client.raise .scrubFull (.block b) .none) := by
  by_cases weak : 2 ≤ c.corrected
  · have lists : s.listWeak b c = s.appendScrub b := if_pos weak
    rw [lists]
    refine ⟨by simp, by simp, by simp, by simp, by simp, fun sound => absurd weak
      (Nat.not_le.mpr sound), fun _ room => ?_, fun _ full => ?_⟩
    · rw [State.appendScrub_of_room b room]
      exact ⟨rfl, rfl⟩
    · rw [State.appendScrub_of_full b full]
      exact ⟨rfl, rfl⟩
  · have stays : s.listWeak b c = s := if_neg weak
    rw [stays]
    exact ⟨rfl, rfl, rfl, rfl, rfl, fun _ => ⟨rfl, rfl⟩, fun h => absurd h weak,
      fun h => absurd h weak⟩

/-- What a decided winner leaves, the map apart (R64, R66, R68). -/
theorem State.resolveClean_spec (s : State) (b : Nat) (home : Finding) (c : Candidate) :
    let t := s.resolveClean b home c
    t.store = (s.listClean b c).store ∧ t.repair = s.repair ∧ t.media.spares = s.media.spares ∧
      (c.corrected < 2 → t.media.scrub = s.media.scrub ∧ t.client = s.client) ∧
      (2 ≤ c.corrected → s.media.scrub.length < 16 →
        t.media.scrub = s.media.scrub ++ [b] ∧ t.client = s.client) ∧
      (2 ≤ c.corrected → 16 ≤ s.media.scrub.length →
        t.media.scrub = s.media.scrub ∧
        t.client = s.client.raise .scrubFull (.block b) .none) ∧
      (4096 ≤ c.sector → b ∈ t.media.retired ∧
        t.mount.marking = s.mount.marking ++ (if home = .mark then [] else [b])) ∧
      (c.sector < 4096 → t.media.retired = s.media.retired ∧
        t.mount.marking = s.mount.marking) := by
  obtain ⟨store, repair, client, scrub, spares, spare, own⟩ :=
    (s.listClean b c).decideHome_spec b home c
  obtain ⟨store', repair', mount', retired', spares', sound, room, full⟩ :=
    ((s.listClean b c).decideHome b home c).listWeak_spec b c
  rw [scrub, client] at sound room full
  rw [State.resolveClean_eq]
  refine ⟨store'.trans store, repair'.trans repair, spares'.trans spares, sound, room, full,
    fun h => ?_, fun h => ?_⟩
  · rw [retired', mount']
    exact spare h
  · rw [retired', mount']
    exact own h

theorem State.resolveBlock_of_no_winner {s : State} {spares : List (Nat × Candidate)} {b : Nat}
    {home : Finding} (lost : winner (candidatesOf b home spares) = none) (h : home ≠ .blank) :
    s.resolveBlock spares b home =
      (if home = .mark then s.retire b else s).resolveLost b
        (if home = .mark then none else some b) := by
  cases home with
  | blank => exact absurd rfl h
  | mark | copy _ _ _ | unreadable => simp [State.resolveBlock, lost]

/-- What a block decided LOST leaves (R65, R69). -/
theorem State.resolveLost_spec (s : State) (b : Nat) (sector : Option Nat) :
    let t := s.resolveLost b sector
    (∀ k, t.entryOf k = if b = k then ⟨sector, .nil, .nil, .lost⟩ else s.entryOf k) ∧
      t.media = s.media ∧ t.mount = s.mount ∧ t.store.clock = s.store.clock ∧
      t.store.staging = s.store.staging ∧
      (s.repair.list.length < 32 → t.repair.list = s.repair.list ++ [b] ∧
        t.client = s.client.raise .blockLost (.block b) (.lost .mount)) ∧
      (32 ≤ s.repair.list.length → t.repair.list = s.repair.list ∧
        t.client = (s.client.raise .blockLost (.block b) (.lost .mount)).raise .repairFull
          (.block b) .none) := by
  obtain ⟨room, full⟩ := State.handToRepair_spec ((s.setEntry b ⟨sector, .nil, .nil, .lost⟩).raise
    .blockLost (.block b) (.lost .mount)) b
  refine ⟨fun k => ?_, by simp [State.resolveLost, State.setEntry],
    by simp [State.resolveLost, State.setEntry], by simp [State.resolveLost, State.setEntry],
    by simp [State.resolveLost, State.setEntry], room, full⟩
  rw [State.resolveLost, State.entryOf_handToRepair, State.entryOf_raise]
  exact s.entryOf_setEntry b k _ (.inl (MapEntry.ne_unwritten (by simp)))

/-- The entries after the decision of a block: no other block's entry changes. -/
theorem State.entryOf_resolveBlock (s : State) (spares : List (Nat × Candidate)) (b : Nat)
    (home : Finding) (k : Nat) :
    (s.resolveBlock spares b home).entryOf k =
      if b = k then
        match winner (candidatesOf b home spares) with
        | some c => ⟨some c.sector, c.version, c.version, .clean⟩
        | none =>
          if home = .blank then s.entryOf b
          else ⟨if home = .mark then none else some b, .nil, .nil, .lost⟩
      else s.entryOf k := by
  cases won : winner (candidatesOf b home spares) with
  | some c =>
    rw [State.resolveBlock_of_winner won, State.entryOf_of (s.resolveClean_spec b home c).1,
      State.entryOf_listClean]
  | none =>
    by_cases blank : home = .blank
    · subst blank
      simp only [State.resolveBlock, won]
      split
      · next same => rw [same]; rfl
      · rfl
    · rw [State.resolveBlock_of_no_winner won blank, (State.resolveLost_spec _ b _).1]
      simp only [blank, if_false]
      by_cases mark : home = .mark <;> simp [mark, State.entryOf, State.retire]

/-- What no decision of a block touches. -/
theorem State.resolveBlock_keeps (s : State) (spares : List (Nat × Candidate)) (b : Nat)
    (home : Finding) :
    let t := s.resolveBlock spares b home
    t.store.clock = s.store.clock ∧ t.store.staging = s.store.staging ∧
      t.media.spares = s.media.spares := by
  cases won : winner (candidatesOf b home spares) with
  | some c =>
    obtain ⟨store, -, free, -⟩ := s.resolveClean_spec b home c
    rw [State.resolveBlock_of_winner won]
    dsimp only
    rw [store]
    exact ⟨rfl, rfl, free⟩
  | none =>
    by_cases blank : home = .blank
    · subst blank
      simp [State.resolveBlock, won]
    · obtain ⟨-, media, -, clock, staging, -⟩ := State.resolveLost_spec
        (if home = .mark then s.retire b else s) b (if home = .mark then none else some b)
      rw [State.resolveBlock_of_no_winner won blank]
      dsimp only
      rw [media, clock, staging]
      split <;> simp

/-! ## The candidates (R63) -/

theorem mem_candidatesOf_iff (b : Nat) (home : Finding) (spares : List (Nat × Candidate))
    (c : Candidate) : c ∈ candidatesOf b home spares ↔
      (home = .copy b c.version c.corrected ∧ c.sector = b) ∨ (b, c) ∈ spares := by
  refine ⟨mem_candidatesOf, ?_⟩
  have of_spare : (b, c) ∈ spares → c ∈ (spares.filter fun p => p.1 = b).map (·.2) := fun h =>
    List.mem_map.mpr ⟨(b, c), List.mem_filter.mpr ⟨h, by simp⟩, rfl⟩
  rintro (⟨rfl, rfl⟩ | h)
  · simp [candidatesOf]
  · unfold candidatesOf
    dsimp only
    split
    · split
      · exact List.mem_cons_of_mem _ (of_spare h)
      · exact of_spare h
    · exact of_spare h

theorem mem_copiesFrom_iff (first : Nat) (findings : List Finding) (b : Nat) (c : Candidate) :
    (b, c) ∈ copiesFrom first findings ↔
      ∃ i, findings[i]? = some (.copy b c.version c.corrected) ∧ c.sector = first + i := by
  induction findings generalizing first with
  | nil => simp [copiesFrom]
  | cons f rest ih =>
    have later : (∃ i, (f :: rest)[i + 1]? = some (.copy b c.version c.corrected) ∧
        c.sector = first + (i + 1)) ↔ (b, c) ∈ copiesFrom (first + 1) rest := by
      rw [ih]
      simp only [List.getElem?_cons_succ, Nat.add_right_comm first 1, Nat.add_assoc first]
    rw [← Nat.or_exists_add_one, later, List.getElem?_cons_zero, Option.some_inj]
    cases f with
    | copy b' v k =>
      obtain ⟨sector, version, corrected⟩ := c
      simp only [copiesFrom, List.mem_cons, Prod.mk.injEq, Candidate.mk.injEq, Finding.copy.injEq,
        Nat.add_zero]
      refine or_congr_left ⟨?_, ?_⟩
      · rintro ⟨rfl, rfl, rfl, rfl⟩
        exact ⟨⟨rfl, rfl, rfl⟩, rfl⟩
      · rintro ⟨⟨rfl, rfl, rfl⟩, rfl⟩
        exact ⟨rfl, rfl, rfl, rfl⟩
    | blank | mark | unreadable => simp [copiesFrom]

/-! ## The resolution as it runs through the findings -/

theorem State.resolveBlocks_eq (spares : List (Nat × Candidate)) (b : Nat) (homes : List Finding)
    (s : State) : State.resolveBlocks spares b homes s =
      (homes.zipIdx b).foldl (init := s) fun u p => u.resolveBlock spares p.2 p.1 := by
  induction homes generalizing b s with
  | nil => rfl
  | cons home rest ih =>
    rw [List.zipIdx_cons, List.foldl_cons, ← ih]
    rfl

theorem State.placeSpares_eq_foldl (n : Nat) (findings : List Finding) (s : State) :
    State.placeSpares n findings s =
      (findings.zipIdx n).foldl (init := s) fun u p => u.placeSpare p.2 p.1 := by
  induction findings generalizing n s with
  | nil => rfl
  | cons f rest ih =>
    rw [List.zipIdx_cons, List.foldl_cons, ← ih]
    rfl

/-- The decision of a block by its winner. -/
theorem State.resolveBlock_winner {s : State} {spares : List (Nat × Candidate)} {b : Nat}
    {home : Finding} {c : Candidate} (won : winner (candidatesOf b home spares) = some c) :
    let t := s.resolveBlock spares b home
    t.entryOf b = ⟨some c.sector, c.version, c.version, .clean⟩ ∧
      t.repair.list = s.repair.list ∧
      (c.corrected < 2 → t.media.scrub = s.media.scrub ∧ t.client = s.client) ∧
      (2 ≤ c.corrected → s.media.scrub.length < 16 →
        t.media.scrub = s.media.scrub ++ [b] ∧ t.client = s.client) ∧
      (2 ≤ c.corrected → 16 ≤ s.media.scrub.length →
        t.media.scrub = s.media.scrub ∧
        t.client = s.client.raise .scrubFull (.block b) .none) ∧
      (4096 ≤ c.sector → b ∈ t.media.retired ∧
        t.mount.marking = s.mount.marking ++ (if home = .mark then [] else [b])) ∧
      (c.sector < 4096 → t.media.retired = s.media.retired ∧
        t.mount.marking = s.mount.marking) := by
  obtain ⟨-, repair, -, rest⟩ := s.resolveClean_spec b home c
  refine ⟨?_, ?_⟩
  · rw [State.entryOf_resolveBlock, if_pos rfl]
    simp only [won]
  · rw [State.resolveBlock_of_winner won]
    exact ⟨congrArg RepairEngine.list repair, rest⟩

/-- The decision of a block without a winner, by its home sector's finding. -/
theorem State.resolveBlock_no_winner {s : State} {spares : List (Nat × Candidate)} {b : Nat}
    {home : Finding} (lost : winner (candidatesOf b home spares) = none) :
    let t := s.resolveBlock spares b home
    t.mount.marking = s.mount.marking ∧ t.media.scrub = s.media.scrub ∧
      (home = .blank → t = s) ∧
      (home ≠ .blank →
        t.entryOf b = ⟨if home = .mark then none else some b, .nil, .nil, .lost⟩ ∧
        (s.repair.list.length < 32 → t.repair.list = s.repair.list ++ [b] ∧
          t.client = s.client.raise .blockLost (.block b) (.lost .mount)) ∧
        (32 ≤ s.repair.list.length → t.repair.list = s.repair.list ∧
          t.client = (s.client.raise .blockLost (.block b) (.lost .mount)).raise .repairFull
            (.block b) .none)) ∧
      (home = .mark → b ∈ t.media.retired) ∧
      (home ≠ .mark → t.media.retired = s.media.retired) := by
  by_cases blank : home = .blank
  · have stays : s.resolveBlock spares b home = s := by
      subst blank
      simp [State.resolveBlock, lost]
    rw [stays]
    exact ⟨rfl, rfl, fun _ => rfl, fun h => absurd blank h, fun h => by simp [blank] at h,
      fun _ => rfl⟩
  · have decides := State.resolveBlock_of_no_winner (s := s) lost blank
    by_cases mark : home = .mark
    · rw [if_pos mark, if_pos mark] at decides
      obtain ⟨entries, media, mount, -, -, room, full⟩ := (s.retire b).resolveLost_spec b none
      rw [decides]
      dsimp only
      rw [media, mount, if_pos mark]
      refine ⟨rfl, rfl, fun h => absurd h blank, fun _ => ⟨?_, room, full⟩, fun _ => ?_,
        fun h => absurd mark h⟩
      · rw [entries, if_pos rfl]
      · exact (mem_addSorted _ _ _).mpr (.inr rfl)
    · rw [if_neg mark, if_neg mark] at decides
      obtain ⟨entries, media, mount, -, -, room, full⟩ := s.resolveLost_spec b (some b)
      rw [decides]
      dsimp only
      rw [media, mount, if_neg mark]
      refine ⟨rfl, rfl, fun h => absurd h blank, fun _ => ⟨?_, room, full⟩,
        fun h => absurd h mark, fun _ => rfl⟩
      rw [entries, if_pos rfl]

/-- Settles O11: by the winner of each block, the finding of its home sector, and the findings of
the spares. -/
theorem mountDecidesEachBlock : Obligations.MountDecidesEachBlock := by
  refine ⟨fun spares b home s => ⟨fun c => State.resolveBlock_winner,
      State.resolveBlock_no_winner, fun k hk => ?_, s.resolveBlock_keeps spares b home⟩,
    mem_candidatesOf_iff, mem_copiesFrom_iff, fun findings s => ?_, fun n f s => ⟨?_, ?_, ?_⟩⟩
  · rw [State.entryOf_resolveBlock, if_neg (Ne.symm hk)]
  · intro homes spares decided placed
    have run : s.resolve findings =
        placed.onStore fun st => { st with clock := largestSequence findings } := by
      unfold State.resolve
      dsimp only
      rw [State.placeSpares_eq_foldl, State.resolveBlocks_eq]
      rfl
    rw [run]
    rfl
  · rintro rfl
    rfl
  · rintro (rfl | rfl)
    · exact ⟨rfl, mem_addSorted _ _, rfl, rfl, rfl, rfl⟩
    · exact ⟨rfl, mem_addSorted _ _, rfl, rfl, rfl, rfl⟩
  · rintro b v k rfl
    exact ⟨fun used => if_pos used, fun unused => if_neg unused⟩

/-! ## The clock after mount (R67) -/

theorem largestSequence_eq (findings : List Finding) :
    largestSequence findings = 0#32 ∨
      ∃ b v k, Finding.copy b v k ∈ findings ∧ v.seq = largestSequence findings := by
  induction findings with
  | nil => exact .inl rfl
  | cons f rest ih =>
    have tail : largestSequence (f :: rest) = largestSequence rest →
        largestSequence (f :: rest) = 0#32 ∨
          ∃ b v k, Finding.copy b v k ∈ f :: rest ∧ v.seq = largestSequence (f :: rest) := by
      intro same
      rw [same]
      exact ih.imp_right fun ⟨b, v, k, found, largest⟩ =>
        ⟨b, v, k, List.mem_cons_of_mem f found, largest⟩
    cases f with
    | blank | mark | unreadable => exact tail rfl
    | copy b v k =>
      by_cases larger : largestSequence rest < v.seq
      · exact .inr ⟨b, v, k, List.mem_cons_self, (if_pos larger).symm⟩
      · exact tail (if_neg larger)

section
variable {s : State} {bound : BitVec 32}

/-- A version that a block is decided at is that of a copy found (R64, R67). -/
theorem State.resolveBlock_le (h : ∀ k, (s.entryOf k).version.seq ≤ bound)
    {spares : List (Nat × Candidate)} (b : Nat) {home : Finding}
    (spare : ∀ p, p ∈ spares → p.2.version.seq ≤ bound)
    (here : ∀ k v n, home = .copy k v n → v.seq ≤ bound) (k : Nat) :
    ((s.resolveBlock spares b home).entryOf k).version.seq ≤ bound := by
  rw [State.entryOf_resolveBlock]
  split
  · split
    · next c won =>
      rcases mem_candidatesOf (winner_mem won) with ⟨copy, -⟩ | listed
      · exact here _ _ _ copy
      · exact spare _ listed
    · split
      · exact h b
      · exact Nat.zero_le _
  · exact h k

theorem State.resolveBlocks_le {spares : List (Nat × Candidate)}
    (spare : ∀ p, p ∈ spares → p.2.version.seq ≤ bound) (homes : List Finding)
    (home : ∀ k v n, Finding.copy k v n ∈ homes → v.seq ≤ bound) (b : Nat)
    (h : ∀ k, (s.entryOf k).version.seq ≤ bound) (k : Nat) :
    ((State.resolveBlocks spares b homes s).entryOf k).version.seq ≤ bound := by
  induction homes generalizing s b with
  | nil => exact h k
  | cons f rest ih =>
    exact ih (fun k v n hf => home k v n (List.mem_cons_of_mem f hf)) (b + 1)
      (State.resolveBlock_le h b spare fun k v n same => home k v n (same ▸ List.mem_cons_self))

end

/-- Settles O12: by the largest sequence, which bounds every copy that a block may be decided at. -/
theorem mountSetsTheClock : Obligations.MountSetsTheClock := by
  intro findings s empty
  refine ⟨fun b v k => le_largestSequence, largestSequence_eq findings, fun b => ?_⟩
  have unwritten : ∀ k, (s.entryOf k).version.seq ≤ largestSequence findings := fun k => by
    simp [State.entryOf, empty, lookupKey, MapEntry.unwritten, Version.nil, BitVec.le_def]
  have placed : (s.resolve findings).entryOf b = (State.resolveBlocks (copiesFrom Config.firstSpare
      (findings.drop Config.blocks)) 0 (findings.take Config.blocks) s).entryOf b := by
    simp only [State.resolve, State.entryOf, State.onStore_store, State.placeSpares_view]
  show ((s.resolve findings).entryOf b).version.seq ≤ largestSequence findings
  rw [placed]
  refine State.resolveBlocks_le (fun p hp => ?_) _ (fun k v n found => ?_) 0 unwritten b
  · obtain ⟨k, found⟩ := copy_of_mem_copiesFrom hp
    exact le_largestSequence (List.mem_of_mem_drop found)
  · exact le_largestSequence (List.mem_of_mem_take found)

/-! ## The end of mount (R70, R71, R108) -/

theorem State.stopServe_steps (s : State) : s.stopServe.media.steps = s.media.steps := by
  unfold State.stopServe
  split
  · rfl
  · split <;> simp [State.dropEngineRequest]

theorem State.haltCursor_steps (s : State) : s.haltCursor.media.steps = s.media.steps := by
  unfold State.haltCursor
  dsimp only
  split <;> simp [State.dropEngineRequest]

theorem State.stopCursor_steps (s : State) : s.stopCursor.media.steps = s.media.steps := by
  unfold State.stopCursor
  split
  · rfl
  · exact s.haltCursor_steps

/-- The phase notice LISTENING leaves the steps at the port (R107). -/
theorem State.noticeListening_steps (s : State) :
    s.noticeListening.media.steps = s.media.steps := by
  unfold State.noticeListening
  rw [State.stopCursor_steps, State.clearServe, State.stopServe_steps]
  simp

theorem State.enterPhase_listening (s : State) :
    (s.enterPhase .listening).client = s.client.raise .phase .none (.phase .listening) ∧
    (s.enterPhase .listening).media.steps = s.media.steps := by
  have notice : ∀ u : State, u.notice .listening = u.noticeListening := fun _ => rfl
  rw [State.enterPhase, notice, State.noticeListening_steps]
  simp [phaseOf]

/-- The station as its phase is about to become LISTENING: the port is free, and SPARE_LOW is raised
if called for. -/
def State.mountDone (s : State) : State :=
  let u := s.freePort.onMount fun _ => .reset
  if u.media.spares.length ≤ Config.spareLow then
    u.raise .spareLow .none (.count u.media.spares.length)
  else u

/-- The station as mount has ended, before its units go on. -/
def State.mountEnded (s : State) (lineActive : Bool) : State :=
  ((s.mountDone.enterPhase .listening).onMember fun m =>
    { m with heartbeatTimer := some s.interval, listenWindow := some (3 * s.interval) }).onLine
    fun l => { l with ignoring := lineActive }

theorem State.endMount_eq (s : State) (lineActive : Bool) :
    s.endMount lineActive = (s.mountEnded lineActive).settle := rfl

theorem State.mountDone_keeps (s : State) :
    s.mountDone.control = s.control ∧ s.mountDone.member = s.member ∧
    s.mountDone.store = s.store ∧ s.mountDone.mount = ⟨[], []⟩ ∧
    s.mountDone.media = { s.media with port := none, steps := [], stepWindow := none } ∧
    s.mountDone.client = if s.media.spares.length ≤ 8 then
        s.client.raise .spareLow .none (.count s.media.spares.length)
      else s.client := by
  unfold State.mountDone
  dsimp only
  split
  · next few => exact ⟨rfl, rfl, rfl, rfl, rfl, (if_pos few).symm⟩
  · next many => exact ⟨rfl, rfl, rfl, rfl, rfl, (if_neg many).symm⟩

theorem State.mountEnded_spec (s : State) (lineActive : Bool) :
    s.MountEnded (s.mountEnded lineActive) lineActive := by
  obtain ⟨control, member, store, mount, media, client⟩ := s.mountDone_keeps
  obtain ⟨raised, steps⟩ := s.mountDone.enterPhase_listening
  have own : s.mountDone.own = s.own := State.own_of control
  have peers : ∀ k, (s.mountEnded lineActive).peer k = (s.mountDone.enterPhase .listening).peer k :=
    fun _ => rfl
  have shown := s.mountDone.enterPhase_own .listening
  rw [own] at shown
  exact {
    phase := s.mountDone.enterPhase_phase .listening
    timers := ⟨rfl, rfl⟩
    own := by rw [peers, shown]; exact ⟨rfl, rfl⟩
    peers := fun k hk => by
      rw [peers, State.enterPhase_peer _ _ _ (own ▸ hk), State.peer_of member]
    ignoring := rfl
    port := ⟨by simp [State.mountEnded, media], steps.trans (by rw [media])⟩
    mount := by simp [State.mountEnded, mount]
    store := by simp [State.mountEnded, store]
    media := by simp [State.mountEnded, media]
    client := raised.trans (by rw [client]) }

theorem State.nextMark_of_empty {s : State} (h : s.mount.marking = []) (lineActive : Bool) :
    s.nextMark lineActive = (s.mountEnded lineActive).settle := by
  simp only [State.nextMark, h]
  exact s.endMount_eq lineActive

theorem State.nextMark_of_cons {s : State} {m : Nat} {more : List Nat}
    (h : s.mount.marking = m :: more) (lineActive : Bool) :
    s.nextMark lineActive = s.usePort (.retireMark m) [.mark m] := by
  simp only [State.nextMark, h]

/-- Settles O13: by the marking list. -/
theorem markingEndsInListening : Obligations.MarkingEndsInListening := by
  intro programError lineActive n rest s port awake marking
  have marks : exec (.marking programError lineActive) s = .next
      ((s.onMount fun t => { t with marking := t.marking.drop 1 }).nextMark lineActive) := by
    show Host.Outcome.next _ = _
    simp only [port, awake]
    rfl
  have dropped : (s.onMount fun t => { t with marking := t.marking.drop 1 }) =
      s.onMount fun t => { t with marking := rest } := by
    simp only [State.onMount, marking, List.drop_succ_cons, List.drop_zero]
  rw [dropped] at marks
  refine ⟨fun m more h => ?_, fun h => ?_⟩
  · rw [marks, State.nextMark_of_cons h]
    rfl
  · rw [marks, State.nextMark_of_empty h]
    have ended := (s.onMount fun t => { t with marking := rest }).mountEnded_spec lineActive
    exact ⟨_, rfl, { ended with }⟩

/-- Settles O8: by whether the scan has reached its last sector, and then by the marking list. -/
theorem scanRecordsEachFinding : Obligations.ScanRecordsEachFinding := by
  intro reading lineActive n s port awake found u
  have scans : exec (.scan reading lineActive) s = .next (s.recordFinding n found lineActive) := by
    show Host.Outcome.next _ = _
    simp only [port, awake]
    rfl
  refine ⟨fun further => ?_, fun last => ?_⟩
  · rw [scans]
    exact congrArg Host.Outcome.next (if_pos further)
  · intro r
    have ends : exec (.scan reading lineActive) s = .next (r.nextMark lineActive) :=
      scans.trans (congrArg Host.Outcome.next (if_neg (Nat.not_lt.mpr last)))
    refine ⟨ends, fun m more h => ?_, fun h => ?_⟩
    · rw [ends, State.nextMark_of_cons h]
      rfl
    · rw [ends, State.nextMark_of_empty h]
      exact ⟨_, rfl, r.mountEnded_spec lineActive⟩

end Sys2Proof.Machine
end

section
/-! PROOF. Sectors as bytes: what the part programs reads back, and any other bytes are read by
their header (O9). -/

namespace Sys2Proof.Machine

/-! ## Words as bytes -/

theorem word16_bytes16 (v : BitVec 16) :
    word16 (v.extractLsb' 8 8) (v.extractLsb' 0 8) = v := by
  rw [word16, BitVec.extractLsb'_append_extractLsb'_eq_extractLsb' (by rfl)]
  exact BitVec.extractLsb'_eq_self

theorem word32_bytes32 (v : BitVec 32) :
    word32 (v.extractLsb' 24 8) (v.extractLsb' 16 8) (v.extractLsb' 8 8) (v.extractLsb' 0 8) =
      v := by
  rw [word32, BitVec.extractLsb'_append_extractLsb'_eq_extractLsb' (by rfl),
    BitVec.extractLsb'_append_extractLsb'_eq_extractLsb' (by rfl),
    BitVec.extractLsb'_append_extractLsb'_eq_extractLsb' (by rfl)]
  exact BitVec.extractLsb'_eq_self

theorem byteOf_toNat {n : Nat} (h : n < 256) : (byteOf n).toNat = n := by
  simp [byteOf, Nat.mod_eq_of_lt h]

theorem dataOf_toList (d : Data) : dataOf d.toList = some d := by
  have size : d.toList.toArray.size = 128 := by simp
  rw [dataOf, dif_pos size]
  rfl

/-! ## What the part programs (R40) -/

/-- The header check stands after the header it is of (R40). -/
theorem SectorContent.headerCheck_body (c : SectorContent) : headerCheck c.body = true := by
  have head : c.body.take 8 = c.header := by
    rw [SectorContent.body, List.append_assoc]
    exact List.take_left' c.header_length
  have check : (c.body.drop 8).take 2 = bytes16 (checkOf (bitsOfBytes c.header)) := by
    rw [SectorContent.body, List.append_assoc, List.drop_left' c.header_length]
    rfl
  rw [headerCheck, head, check, beq_self_eq_true]

theorem headerOf_of_check {bytes : List Byte} (h : headerCheck bytes = false) :
    headerOf bytes = none := by
  simp [headerOf, h]

theorem headerOf_copy (b : Nat) (v : Version) (d : Data) :
    headerOf (SectorContent.copy b v d).body =
      some (.copy (byteOf v.origin.val) (BitVec.ofNat 16 b) v.seq) := by
  refine (if_pos (SectorContent.headerCheck_body _)).trans ((if_pos rfl).trans ?_)
  rw [word16_bytes16, word32_bytes32]

theorem headerOf_mark (n : Nat) : headerOf (SectorContent.mark n).body = some .mark :=
  if_pos (SectorContent.headerCheck_body _)

theorem decodedData_copy (b : Nat) (v : Version) (d : Data) :
    decodedData (SectorContent.copy b v d).body = d := by
  have data : (SectorContent.copy b v d).body.drop 10 = d.toList := rfl
  rw [decodedData, data, dataOf_toList]
  rfl

/-- The outcome of a readable sector by the symbols corrected (R46). -/
def ReadOutcome.ofCount (d : Data) (n : Nat) : ReadOutcome :=
  if n = 0 then .clean d else if n = 1 then .corrected d else .weak d

theorem readOutcome_of_fits {b : Nat} {v : Version} {bytes : List Byte} {origin : Byte}
    {block : BitVec 16} {seq : BitVec 32} (n : Nat)
    (header : headerOf bytes = some (.copy origin block seq))
    (fits : block.toNat = b ∧ seq = v.seq ∧ origin.toNat = v.origin.val) :
    readOutcome b v (.decoded bytes n) = .ofCount (decodedData bytes) n := by
  simp only [readOutcome, header, if_pos fits]
  rfl

theorem findingOf_of_copy {bytes : List Byte} {origin : Byte} {block : BitVec 16}
    {seq : BitVec 32} (n : Nat) (header : headerOf bytes = some (.copy origin block seq)) :
    (4096 ≤ block.toNat ∨ seq = 0#32 ∨ 8 ≤ origin.toNat →
      findingOf (.decoded bytes n) = .unreadable) ∧
    ∀ station : StationNo, block.toNat < 4096 → seq ≠ 0#32 → origin.toNat = station.val →
      findingOf (.decoded bytes n) = .copy block.toNat ⟨seq, station⟩ n := by
  refine ⟨fun bad => ?_, fun station inStore written same => ?_⟩
  · simp only [findingOf, header]
    split
    · next small =>
      refine if_neg fun ⟨inStore, written⟩ => ?_
      exact bad.elim (Nat.not_le.mpr inStore) fun h => h.elim written (Nat.not_le.mpr small)
    · rfl
  · have small : origin.toNat < 8 := same ▸ station.isLt
    simp only [findingOf, header, dif_pos small]
    have origin' : (⟨origin.toNat, small⟩ : StationNo) = station := Fin.ext same
    rw [origin']
    exact if_pos ⟨inStore, written⟩

theorem verifyResult_of_check (bytes : List Byte) (n : Nat) :
    verifyResult false (.decoded bytes n) =
      if headerCheck bytes then (if n = 0 then .good else .weak) else .failed := rfl

theorem verifyResult_error (r : ReadBack) : verifyResult true r = .failed := rfl

/-! ## Bytes of any origin (R41) -/

theorem decodeTo_of_none {raw : List Byte} {candidates : List (List Byte)}
    (h : ∀ bytes, bytes.length = 138 → 4 < symbolErrors raw bytes) :
    decodeTo raw candidates = .undecodable := by
  have none_fits : candidates.find? (corrects raw) = none := by
    refine List.find?_eq_none.mpr fun bytes _ fits => ?_
    simp only [corrects, Bool.and_eq_true, decide_eq_true_eq] at fits
    exact absurd fits.2 (Nat.not_le.mpr (h bytes fits.1.2))
  simp only [decodeTo, none_fits]

theorem of_decodeTo_eq_decoded {raw bytes : List Byte} {candidates : List (List Byte)} {n : Nat}
    (h : decodeTo raw candidates = .decoded bytes n) :
    bytes.length = 138 ∧ n = symbolErrors raw bytes ∧ n ≤ 4 := by
  unfold decodeTo at h
  split at h
  · next found hfound =>
    obtain ⟨rfl, rfl⟩ := ReadBack.decoded.inj h
    have fits := List.find?_some hfound
    simp only [corrects, Bool.and_eq_true, decide_eq_true_eq] at fits
    exact ⟨fits.1.2, rfl, fits.2⟩
  · cases h

theorem readBack_image_of_ne {raw : List Byte} (h : raw ≠ List.replicate 146 0xFF#8)
    (content : Option SectorContent) (corrected : Option (List Byte)) :
    readBack content (.image raw corrected) = decodeTo raw
      ((content.map SectorContent.body).toList ++ [raw.take 138] ++ corrected.toList) := by
  refine if_neg fun ⟨long, erased⟩ => h ?_
  simp only [List.all_eq_true, beq_iff_eq] at erased
  exact List.eq_replicate_iff.mpr ⟨long, erased⟩

theorem readBack_image_of_erased {raw : List Byte} (h : raw = List.replicate 146 0xFF#8)
    (content : Option SectorContent) (corrected : Option (List Byte)) :
    readBack content (.image raw corrected) = .blank := by
  obtain ⟨long, erased⟩ := List.eq_replicate_iff.mp h
  refine if_pos ⟨long, List.all_eq_true.mpr fun x hx => ?_⟩
  rw [erased x hx]
  rfl

theorem decodeTo_body {raw : List Byte} {c : SectorContent} (long : raw.length = 146)
    (few : symbolErrors raw c.body ≤ 4) (others : List (List Byte)) :
    decodeTo raw (c.body :: others) = .decoded c.body (symbolErrors raw c.body) := by
  have fits : corrects raw c.body = true := by
    simp [corrects, long, c.body_length, Config.correctionLimit, few]
  simp only [decodeTo, List.find?_cons, fits]

/-! ## The header of ten given bytes -/

section
variable {k o n1 n0 s3 s2 s1 s0 c1 c0 : Byte} {rest : List Byte}

theorem headerCheck_eq (k o n1 n0 s3 s2 s1 s0 c1 c0 : Byte) (rest : List Byte) :
    headerCheck ([k, o, n1, n0, s3, s2, s1, s0] ++ [c1, c0] ++ rest) =
      (bytes16 (checkOf (bitsOfBytes [k, o, n1, n0, s3, s2, s1, s0])) == [c1, c0]) := rfl

theorem headerOf_of_checks
    (checks : bytes16 (checkOf (bitsOfBytes [k, o, n1, n0, s3, s2, s1, s0])) = [c1, c0]) :
    headerOf ([k, o, n1, n0, s3, s2, s1, s0] ++ [c1, c0] ++ rest) =
      if k = 0x01#8 then some (.copy o (word16 n1 n0) (word32 s3 s2 s1 s0))
      else if k = 0x02#8 then some .mark
      else none := by
  have checked : headerCheck ([k, o, n1, n0, s3, s2, s1, s0] ++ [c1, c0] ++ rest) = true := by
    rw [headerCheck_eq, beq_iff_eq]
    exact checks
  exact if_pos checked

end

/-- A decoded sector without a readable header of a copy reads as UNREADABLE (R46). -/
theorem readOutcome_of_not_fits {b : Nat} {v : Version} {r : ReadBack}
    (h : ∀ bytes n, r = .decoded bytes n → ¬ ∃ origin block seq,
      headerOf bytes = some (.copy origin block seq) ∧ block.toNat = b ∧ seq = v.seq ∧
        origin.toNat = v.origin.val) : readOutcome b v r = .unreadable := by
  cases r with
  | blank | undecodable => rfl
  | decoded bytes n =>
    unfold readOutcome
    dsimp only
    split
    · next origin block seq header =>
      exact if_neg fun fits => h bytes n rfl ⟨origin, block, seq, header, fits⟩
    · rfl

/-- Settles O9: by what the part programs, and else by the decoding and the header. -/
theorem sectorsReadByTheirHeader : Obligations.SectorsReadByTheirHeader := by
  refine ⟨fun b v d k inStore written => ?_, fun n k => ?_, fun k => rfl,
    fun content raw corrected long => ⟨?_, fun written => ⟨?_, fun far => ?_, fun bytes n => ?_⟩⟩,
    fun k o n1 n0 s3 s2 s1 s0 c1 c0 rest n => ⟨fun unchecked => ?_, fun checks => ?_,
      fun checks mark => ?_, fun checks copy mark => ?_, fun checks copy => ?_⟩,
    ⟨rfl, rfl, verifyResult_error⟩, fun b v r => ⟨?_, readOutcome_of_not_fits⟩⟩
  · have header := headerOf_copy b v d
    have block : (BitVec.ofNat 16 b).toNat = b := by
      rw [BitVec.toNat_ofNat, Nat.mod_eq_of_lt (by omega)]
    have origin : (byteOf v.origin.val).toNat = v.origin.val := byteOf_toNat (by omega)
    refine ⟨?_, ?_, ?_, rfl⟩
    · have found := (findingOf_of_copy k.val header).2 v.origin (by omega) written origin
      rw [block] at found
      exact found
    · have read := readOutcome_of_fits (v := v) k.val header ⟨block, rfl, origin⟩
      rw [decodedData_copy] at read
      exact read
    · exact if_pos (SectorContent.headerCheck_body _)
  · show findingOf (.decoded (SectorContent.mark n).body k.val) = .mark
    simp only [findingOf, headerOf_mark]
  · exact fun erased => readBack_image_of_erased erased content corrected
  · rintro c rfl few
    rw [readBack_image_of_ne written]
    exact decodeTo_body long few _
  · rw [readBack_image_of_ne written, decodeTo_of_none far]
    exact ⟨rfl, rfl, rfl⟩
  · rw [readBack_image_of_ne written]
    exact of_decodeTo_eq_decoded
  · have unread : headerCheck ([k, o, n1, n0, s3, s2, s1, s0] ++ [c1, c0] ++ rest) = false := by
      rw [headerCheck_eq, beq_eq_false_iff_ne]
      exact unchecked
    have none_readable := headerOf_of_check unread
    refine ⟨?_, ?_, fun b v => ?_⟩
    · simp only [findingOf, none_readable]
    · rw [verifyResult_of_check, unread]
      rfl
    · simp only [readOutcome, none_readable]
  · rw [verifyResult_of_check, headerCheck_eq, beq_iff_eq.mpr checks]
    rfl
  · have header := headerOf_of_checks (rest := rest) checks
    subst mark
    rw [if_neg (by decide), if_pos rfl] at header
    simp only [findingOf, header]
  · have header := headerOf_of_checks (rest := rest) checks
    rw [if_neg copy, if_neg mark] at header
    simp only [findingOf, header]
  · have header := headerOf_of_checks (rest := rest) checks
    rw [if_pos copy] at header
    exact findingOf_of_copy n header
  · rintro bytes n rfl ⟨origin, block, seq, header, fits⟩
    exact readOutcome_of_fits n header fits

end Sys2Proof.Machine
end

section
/-! PROOF. Frames on the line: a frame of any kind reads back whole (O33). -/

namespace Sys2Proof.Machine

/-! ## Fields as bits -/

/-- The number that a run of bits spells, most significant first. -/
def bitsValue (bits : List Bool) : Nat := bits.foldl (fun n b => 2 * n + b.toNat) 0

theorem bitsValue_append_singleton (bits : List Bool) (b : Bool) :
    bitsValue (bits ++ [b]) = 2 * bitsValue bits + b.toNat := by
  simp [bitsValue]

/-- The lowest w bits of a number, most significant first, spell it. -/
theorem bitsValue_testBit (w n : Nat) :
    bitsValue ((List.range w).map fun i => n.testBit (w - 1 - i)) = n % 2 ^ w := by
  induction w generalizing n with
  | zero => simp [bitsValue, Nat.mod_one]
  | succ w ih =>
    have high : (List.range w).map (fun i => n.testBit (w + 1 - 1 - i)) =
        (List.range w).map fun i => (n / 2).testBit (w - 1 - i) := by
      refine List.map_congr_left fun i hi => ?_
      have hi := List.mem_range.mp hi
      rw [← Nat.testBit_add_one, show w - 1 - i + 1 = w + 1 - 1 - i by omega]
    have low : (n.testBit (w + 1 - 1 - w)).toNat = n % 2 := by
      rw [show w + 1 - 1 - w = 0 by omega, Nat.testBit_zero]
      rcases Nat.mod_two_eq_zero_or_one n with h | h <;> simp [h]
    rw [List.range_succ, List.map_append, high, List.map_singleton, bitsValue_append_singleton, ih,
      low, Nat.pow_succ', Nat.mod_mul]
    omega

theorem bitsValue_bitsOf {w : Nat} (v : BitVec w) : bitsValue (bitsOf v) = v.toNat := by
  have bits : bitsOf v = (List.range w).map fun i => v.toNat.testBit (w - 1 - i) := by
    refine List.map_congr_left fun i hi => ?_
    simp [BitVec.getMsbD, List.mem_range.mp hi, BitVec.testBit_toNat]
  rw [bits, bitsValue_testBit, Nat.mod_eq_of_lt v.isLt]

@[simp] theorem length_bitsOf {w : Nat} (v : BitVec w) : (bitsOf v).length = w := by
  simp [bitsOf]

/-- A field reads back at its place in a run of bits (R77). -/
theorem fieldAt_bitsOf {w n : Nat} (before : List Bool) (v : BitVec w) (after : List Bool)
    (place : before.length = n) : fieldAt (before ++ (bitsOf v ++ after)) n w = v := by
  have taken : (bitsOf v ++ after).take w = bitsOf v := List.take_left' (length_bitsOf v)
  rw [fieldAt, ← place, List.drop_left, taken]
  exact (congrArg (BitVec.ofNat w) (bitsValue_bitsOf v)).trans (by simp)

theorem bitsOfBytes_cons (b : Byte) (bytes : List Byte) :
    bitsOfBytes (b :: bytes) = bitsOf b ++ bitsOfBytes bytes := rfl

theorem bitsOfBytes_append (a b : List Byte) :
    bitsOfBytes (a ++ b) = bitsOfBytes a ++ bitsOfBytes b := List.flatMap_append

@[simp] theorem length_bitsOfBytes (bytes : List Byte) :
    (bitsOfBytes bytes).length = 8 * bytes.length := by
  induction bytes with
  | nil => rfl
  | cons b bytes ih => rw [bitsOfBytes_cons, List.length_append, ih, length_bitsOf,
      List.length_cons]; omega

/-! ## The bits of a frame (R77) -/

/-- The bits of a frame, from its class to its check, before stuffing. -/
def frameBits (f : RawFrame) : List Bool :=
  headerBits f ++ bitsOfBytes f.body ++ bitsOf f.check

@[simp] theorem length_headerBits (f : RawFrame) : (headerBits f).length = 22 := by
  simp [headerBits]

theorem length_frameBits (f : RawFrame) :
    (frameBits f).length = 22 + 8 * f.body.length + 16 := by
  simp only [frameBits, List.length_append, length_headerBits, length_bitsOfBytes, length_bitsOf]

/-- The header of any bits that begin with a frame's gives its body length. -/
theorem bodyLengthOf_headerBits (f : RawFrame) (short : f.body.length < 512) (after : List Bool) :
    bodyLengthOf (headerBits f ++ after) = f.body.length := by
  have field : fieldAt (headerBits f ++ after) 13 9 = BitVec.ofNat 9 f.body.length := by
    rw [headerBits, List.append_assoc]
    exact fieldAt_bitsOf _ _ after (by simp)
  rw [bodyLengthOf, field, BitVec.toNat_ofNat, Nat.mod_eq_of_lt short]

/-- The bits read are a frame's last exactly as they are all its bits (R89). -/
theorem frameWhole_of_append {f : RawFrame} (short : f.body.length < 512)
    {before after : List Bool} (split : frameBits f = before ++ after) :
    frameWhole before = decide (after = []) := by
  have length : before.length + after.length = 22 + 8 * f.body.length + 16 := by
    rw [← List.length_append, ← split, length_frameBits]
  by_cases header : 22 ≤ before.length
  · have starts : headerBits f <+: before := by
      refine List.prefix_of_prefix_length_le (l₃ := frameBits f) ?_ ⟨after, split.symm⟩ (by simpa)
      exact ⟨_, by rw [frameBits, List.append_assoc]⟩
    obtain ⟨rest, rfl⟩ := starts
    have empty : after = [] ↔ after.length = 0 := List.length_eq_zero_iff.symm
    simp only [frameWhole, bodyLengthOf_headerBits f short, header, decide_true, Bool.true_and,
      decide_eq_decide, empty]
    omega
  · have some_left : after ≠ [] := by
      rintro rfl
      simp only [List.length_nil] at length
      omega
    simp [frameWhole, header, some_left]

/-- The fields of a frame's bits are the frame's (R77). -/
theorem rawOf_frameBits (f : RawFrame) (short : f.body.length < 512) :
    rawOf (frameBits f) = f := by
  have bodyLength : bodyLengthOf (frameBits f) = f.body.length := by
    rw [frameBits, List.append_assoc]
    exact bodyLengthOf_headerBits f short _
  have fields : frameBits f = bitsOf f.cls ++ (bitsOf f.sender ++ (bitsOf f.target ++
      (bitsOf f.kind ++ (bitsOf (BitVec.ofNat 9 f.body.length) ++
        (bitsOfBytes f.body ++ (bitsOf f.check ++ [])))))) := by
    simp [frameBits, headerBits]
  have body : (List.range f.body.length).map (fun i => fieldAt (frameBits f) (22 + 8 * i) 8) =
      f.body := by
    refine List.ext_getElem (by simp) fun i h₁ h₂ => ?_
    have split : f.body = f.body.take i ++ f.body[i] :: f.body.drop (i + 1) := by
      rw [List.getElem_cons_drop, List.take_append_drop]
    have placed : frameBits f = (headerBits f ++ bitsOfBytes (f.body.take i)) ++
        (bitsOf f.body[i] ++ (bitsOfBytes (f.body.drop (i + 1)) ++ bitsOf f.check)) := by
      rw [frameBits]
      conv_lhs => rw [split]
      simp only [bitsOfBytes_append, bitsOfBytes_cons, List.append_assoc]
    rw [List.getElem_map, List.getElem_range, placed]
    exact fieldAt_bitsOf _ _ _ (by simp; omega)
  have check : fieldAt (frameBits f) (22 + 8 * f.body.length) 16 = f.check := by
    rw [frameBits, ← List.append_nil (bitsOf f.check)]
    exact fieldAt_bitsOf _ _ _ (by simp)
  have cls : fieldAt (frameBits f) 0 2 = f.cls := fields ▸ fieldAt_bitsOf [] f.cls _ rfl
  have sender : fieldAt (frameBits f) 2 3 = f.sender :=
    fields ▸ fieldAt_bitsOf (bitsOf f.cls) f.sender _ (by simp)
  have target : fieldAt (frameBits f) 5 4 = f.target := by
    rw [fields, ← List.append_assoc]
    exact fieldAt_bitsOf _ f.target _ (by simp)
  have kind : fieldAt (frameBits f) 9 4 = f.kind := by
    rw [fields, ← List.append_assoc, ← List.append_assoc]
    exact fieldAt_bitsOf _ f.kind _ (by simp)
  unfold rawOf
  rw [cls, sender, target, kind, bodyLength, body, check]

/-! ## Stuffing (R76) -/

/-- A receiver takes the stuff bits out again, and ends with the frame's last bit (R76, R89). -/
theorem readFrom_stuffFrom (bits : List Bool) (before : List Bool) (last : Bool) (run : Nat)
    (some_left : bits ≠ [])
    (whole : ∀ pre post, bits = pre ++ post → pre ≠ [] →
      frameWhole (before ++ pre) = decide (post = [])) :
    readFrom before last run (stuffFrom last run bits) = .frame (rawOf (before ++ bits)) := by
  induction bits generalizing before last run with
  | nil => exact absurd rfl some_left
  | cons b rest ih =>
    have next : ∀ k, (if frameWhole (before ++ [b]) then
          .frame (rawOf (before ++ [b]))
        else readFrom (before ++ [b]) b k (stuffFrom b k rest)) =
        LineReading.frame (rawOf (before ++ b :: rest)) := by
      intro k
      rw [whole [b] rest rfl (by simp)]
      by_cases ends : rest = []
      · simp [ends]
      · rw [if_neg (by simpa using ends), ih (before ++ [b]) b k ends fun pre post split _ => ?_]
        · simp
        · rw [List.append_assoc]
          exact whole (b :: pre) post (by simp [split]) (by simp)
    by_cases five : run = 5
    · have stuffed : stuffFrom last run (b :: rest) =
          (!last) :: b :: stuffFrom b (if b = !last then 2 else 1) rest := if_pos five
      have skips : ∀ l, readFrom before last run ((!last) :: l) = readFrom before (!last) 1 l :=
        fun l => (if_pos five).trans (if_neg (by simp))
      rw [stuffed, skips]
      exact next _
    · have plain : stuffFrom last run (b :: rest) =
          b :: stuffFrom b (if b = last then run + 1 else 1) rest := if_neg five
      rw [plain]
      exact (if_neg five).trans (next _)

theorem readLine_lineBits (f : RawFrame) (short : f.body.length < 512) :
    readLine (lineBits f) = .frame f := by
  have some_bits : frameBits f ≠ [] := by
    intro empty
    have length := length_frameBits f
    simp [empty] at length
  have reads := readFrom_stuffFrom (frameBits f) [] false 1 some_bits
    fun pre post split _ => frameWhole_of_append short split
  rw [List.nil_append, rawOf_frameBits f short] at reads
  exact reads

/-! ## The coded fields (R79) -/

theorem versionOf_versionBytes (v : Version) :
    versionOf (v.seq.extractLsb' 24 8) (v.seq.extractLsb' 16 8) (v.seq.extractLsb' 8 8)
      (v.seq.extractLsb' 0 8) (byteOf v.origin.val) = some v := by
  have origin : (byteOf v.origin.val).toNat = v.origin.val := byteOf_toNat (by omega)
  rw [versionOf, dif_pos (by omega), word32_bytes32]
  simp only [origin]

theorem versionsOf_flatMap (vs : List Version) :
    versionsOf (vs.flatMap versionBytes) = some vs := by
  induction vs with
  | nil => rfl
  | cons v vs ih =>
    show versionsOf (_ :: _ :: _ :: _ :: _ :: vs.flatMap versionBytes) = _
    rw [versionsOf, versionOf_versionBytes, ih]

theorem vector64_toList (vs : Vector Version 64) : vector64 vs.toList = some vs := by
  have size : vs.toList.toArray.size = 64 := by simp
  rw [vector64, dif_pos size]
  rfl

theorem rangeOf_byteOf (r : Fin 64) : rangeOf (byteOf r.val) = some r := by
  have value : (byteOf r.val).toNat = r.val := byteOf_toNat (by omega)
  rw [rangeOf, dif_pos (by omega)]
  simp only [value]

theorem flagOf_flagByte (b : Bool) : flagOf (flagByte b) = some b := by cases b <;> rfl

theorem runPhaseOf_code (p : RunPhase) : runPhaseOf (runPhaseCode p) = some p := by
  cases p <;> rfl

theorem word64_bytes64 (v : BitVec 64) :
    word32 ((v.extractLsb' 32 32).extractLsb' 24 8) ((v.extractLsb' 32 32).extractLsb' 16 8)
        ((v.extractLsb' 32 32).extractLsb' 8 8) ((v.extractLsb' 32 32).extractLsb' 0 8) ++
      word32 ((v.extractLsb' 0 32).extractLsb' 24 8) ((v.extractLsb' 0 32).extractLsb' 16 8)
        ((v.extractLsb' 0 32).extractLsb' 8 8) ((v.extractLsb' 0 32).extractLsb' 0 8) = v := by
  rw [word32_bytes32, word32_bytes32,
    BitVec.extractLsb'_append_extractLsb'_eq_extractLsb' (by rfl)]
  exact BitVec.extractLsb'_eq_self

/-- The attempt of a frame's body holds 1..4, where the body has one (R79). -/
def Body.attemptHolds : Body → Bool
  | .update _ _ attempt _ _ _ | .query _ attempt _ => attemptOk attempt
  | _ => true

/-- A body of any kind reads back from its bytes (R79). -/
theorem bodyOf_bytes (body : Body) (attempt : body.attemptHolds = true) :
    bodyOf body.kind body.bytes = some body := by
  cases body with
  | heartbeat p clock g geometry spares staging =>
    simp only [Body.kind, Body.bytes, bytes32, List.cons_append, List.nil_append, bodyOf,
      runPhaseOf_code, word32_bytes32, Option.map_some]
  | update b v a wanted relay d =>
    have holds : attemptOk a = true := attempt
    simp only [Body.kind, Body.bytes, bytes16, versionBytes, bytes32, List.cons_append,
      List.nil_append, bodyOf, versionOf_versionBytes, flagOf_flagByte, dataOf_toList,
      word16_bytes16, holds, if_true]
  | ack b v outcome =>
    cases outcome with
    | stored | busy =>
      simp [Body.kind, Body.bytes, bytes16, versionBytes, bytes32, bodyOf, versionOf_versionBytes,
        word16_bytes16]
    | stale h =>
      simp [Body.kind, Body.bytes, bytes16, versionBytes, bytes32, bodyOf, versionOf_versionBytes,
        word16_bytes16]
  | query b a wanted =>
    have holds : attemptOk a = true := attempt
    simp only [Body.kind, Body.bytes, bytes16, List.cons_append, List.nil_append, bodyOf,
      word16_bytes16, holds, if_true]
  | report b v held =>
    simp only [Body.kind, Body.bytes, bytes16, versionBytes, bytes32, List.cons_append,
      List.nil_append, bodyOf, versionOf_versionBytes, flagOf_flagByte, word16_bytes16]
  | fetch b | notHeld b =>
    simp only [Body.kind, Body.bytes, bytes16, bodyOf, word16_bytes16]
  | repair b v d | push b v d =>
    simp only [Body.kind, Body.bytes, bytes16, versionBytes, bytes32, List.cons_append,
      List.nil_append, bodyOf, versionOf_versionBytes, dataOf_toList, word16_bytes16]
  | digest r vs =>
    simp only [Body.kind, Body.bytes, bodyOf, rangeOf_byteOf, versionsOf_flatMap,
      Option.bind_some, vector64_toList]
  | rangeDone r sent want =>
    simp only [Body.kind, Body.bytes, bytes64, bytes32, List.cons_append, List.nil_append, bodyOf,
      rangeOf_byteOf, word64_bytes64, Option.map_some]
  | busy request =>
    cases request with
    | fetch b => simp [Body.kind, Body.bytes, bytes16, bodyOf, word16_bytes16]
    | digest r => simp [Body.kind, Body.bytes, bodyOf, rangeOf_byteOf]
  | notServing r =>
    simp only [Body.kind, Body.bytes, bodyOf, rangeOf_byteOf, Option.map_some]

/-! ## The frame as a whole (R77, R91) -/

theorem length_versionsBytes (vs : List Version) :
    (vs.flatMap versionBytes).length = 5 * vs.length := by
  induction vs with
  | nil => rfl
  | cons v vs ih =>
    rw [List.flatMap_cons, List.length_append, ih, List.length_cons]
    simp only [versionBytes, bytes32, List.length_append, List.length_cons, List.length_nil]
    omega

/-- The longest body is a DIGEST's, 321 bytes (R79). -/
theorem Body.length_bytes (body : Body) : body.bytes.length < 512 := by
  cases body with
  | ack b v outcome => cases outcome <;> simp [Body.bytes, bytes16, versionBytes, bytes32]
  | busy request => cases request <;> simp [Body.bytes, bytes16]
  | digest r vs =>
    have versions := length_versionsBytes vs.toList
    simp only [Body.bytes, List.length_cons, versions, Vector.length_toList]
    omega
  | _ => simp [Body.bytes, bytes16, bytes32, bytes64, versionBytes]

theorem targetOf_station (n : StationNo) : targetOf (BitVec.ofNat 4 n.val) = some (some n) := by
  have value : (BitVec.ofNat 4 n.val).toNat = n.val := by
    rw [BitVec.toNat_ofNat, Nat.mod_eq_of_lt (by omega)]
  rw [targetOf, dif_pos (by omega)]
  simp only [value]

theorem targetOf_all : targetOf 15#4 = some none := rfl

theorem Frame.targetOf_raw (f : Frame) : targetOf f.raw.target = some f.target := by
  obtain ⟨sender, target, body⟩ := f
  cases target with
  | none => exact targetOf_all
  | some n => exact targetOf_station n

theorem Frame.sender_raw (f : Frame) : f.raw.sender.toNat = f.sender.val := by
  show (BitVec.ofNat 3 f.sender.val).toNat = _
  rw [BitVec.toNat_ofNat, Nat.mod_eq_of_lt (by omega)]

theorem Frame.kind_raw (f : Frame) : f.raw.kind.toNat = f.body.kind := by
  show (BitVec.ofNat 4 f.body.kind).toNat = _
  cases f.body <;> rfl

theorem Frame.cls_raw (f : Frame) : f.raw.cls.toNat = f.body.cls := by
  show (BitVec.ofNat 2 f.body.cls).toNat = _
  cases f.body with
  | update b v a wanted relay d => cases relay <;> rfl
  | _ => rfl

/-- The parts of a frame's form that its kind asks for (R78, R79). -/
theorem Frame.wellFormed_iff (f : Frame) :
    f.wellFormed = true ↔ f.target.isNone = f.body.broadcast ∧ f.body.attemptHolds = true := by
  obtain ⟨sender, target, body⟩ := f
  rw [Frame.wellFormed, Bool.and_eq_true, decide_eq_true_eq]
  cases body <;> rfl

theorem Frame.frameForm_raw (f : Frame) (h : f.wellFormed = true) : frameForm f.raw = some f := by
  obtain ⟨form, attempt⟩ := f.wellFormed_iff.mp h
  have body : bodyOf f.raw.kind.toNat f.raw.body = some f.body := by
    rw [f.kind_raw]
    exact bodyOf_bytes f.body attempt
  have sender : (⟨f.raw.sender.toNat, f.raw.sender.isLt⟩ : StationNo) = f.sender :=
    Fin.ext f.sender_raw
  simp only [frameForm, body, f.targetOf_raw, sender]
  exact if_pos ⟨f.cls_raw, form⟩

/-- The fields of a frame without their check. -/
def Frame.unchecked (f : Frame) : RawFrame where
  cls := BitVec.ofNat 2 f.body.cls
  sender := BitVec.ofNat 3 f.sender.val
  target := match f.target with
    | some n => BitVec.ofNat 4 n.val
    | none => 15#4
  kind := BitVec.ofNat 4 f.body.kind
  body := f.body.bytes
  check := 0#16

theorem Frame.raw_eq (f : Frame) :
    f.raw = { f.unchecked with check := computedCheck f.unchecked } := rfl

/-- The check is computed over the other fields. -/
theorem computedCheck_check (f : RawFrame) (c : BitVec 16) :
    computedCheck { f with check := c } = computedCheck f := rfl

theorem Frame.check_raw (f : Frame) : f.raw.check = computedCheck f.unchecked := by
  rw [f.raw_eq]

theorem Frame.computedCheck_unchecked (f : Frame) :
    computedCheck f.raw = computedCheck f.unchecked := by
  rw [f.raw_eq]
  exact computedCheck_check f.unchecked _

theorem Frame.computedCheck_raw (f : Frame) : computedCheck f.raw = f.raw.check :=
  f.computedCheck_unchecked.trans f.check_raw.symm

/-- A receiver that does not share the sender's number takes the frame as good (R91). -/
theorem Frame.judgeFrame_raw (f : Frame) (h : f.wellFormed = true) {own : StationNo}
    (other : own ≠ f.sender) : judgeFrame own f.raw = .good f := by
  have sender : f.raw.sender.toNat ≠ own.val := fun same =>
    other (Fin.ext (same.symm.trans f.sender_raw))
  rw [judgeFrame, if_neg (not_not_intro f.computedCheck_raw), if_neg sender]
  simp only [f.frameForm_raw h]

/-- Settles O33: by the stuffing, the fields and the body of each kind. -/
theorem framesReadBackWhole : Obligations.FramesReadBackWhole := by
  intro f h
  have read : readLine (lineBits f.raw) = .frame f.raw := readLine_lineBits f.raw f.body.length_bytes
  refine ⟨read, f.frameForm_raw h, fun own other => ⟨f.judgeFrame_raw h other, ?_⟩, ?_⟩
  · simp only [receptionOf, read, arrivalOf, f.judgeFrame_raw h other]
  · rw [judgeFrame, if_neg (not_not_intro f.computedCheck_raw), if_pos f.sender_raw]

end Sys2Proof.Machine
end

section
/-! PROOF. How the units go on at the end of a command, and the serve slot at work (O3). -/

namespace Sys2Proof.Machine

/-! ## What one action leaves of the staging queue and of the peers -/

/-- The staged contents and the peers of t are those of s. -/
def State.SameView (s t : State) : Prop :=
  t.staged = s.staged ∧ ∀ n, n ≠ s.own → t.peer n = s.peer n

theorem State.SameView.of_store {s t : State} (store : t.store = s.store)
    (member : t.member = s.member) : s.SameView t :=
  ⟨by simp [State.staged, store], fun n _ => State.peer_of member n⟩

theorem State.SameView.trans {s t u : State} (h : s.SameView t) (h' : t.SameView u)
    (control : t.control = s.control) : s.SameView u :=
  ⟨h'.1.trans h.1, fun n hn => (h'.2 n (State.own_of control ▸ hn)).trans (h.2 n hn)⟩

/-- The completion of catch-up changes the own entry alone (R112). -/
theorem State.completeCatchUp_peer (s : State) (n : StationNo) (h : n ≠ s.own) :
    s.completeCatchUp.peer n = s.peer n := State.enterPhase_peer _ _ n h

theorem State.rangeDone_view (s : State) : s.SameView s.rangeDone := by
  refine ⟨by simp [State.staged], fun n h => ?_⟩
  unfold State.rangeDone
  split
  · exact State.peer_of (by simp) n
  · exact State.completeCatchUp_peer _ n h

theorem State.cursorStep_view {s t : State} (h : s.cursorStep = some t) : s.SameView t := by
  unfold State.cursorStep at h
  dsimp only at h
  split at h
  · split at h
    · obtain rfl := Option.some.inj h
      exact .of_store (by simp) (by simp)
    · split at h
      · obtain rfl := Option.some.inj h
        exact s.rangeDone_view
      · split at h
        · obtain rfl := Option.some.inj h
          exact .of_store (by simp) (by simp)
        · cases h
  · cases h

/-- The head that becomes WRITING keeps its content (R23). -/
theorem State.takeWrite_view (s : State) : s.SameView s.takeWrite := by
  refine ⟨?_, fun n _ => State.peer_of (by simp) n⟩
  cases staging : s.store.staging with
  | nil => simp [State.takeWrite, staging]
  | cons e rest =>
    rw [State.staged, (State.takeWrite_head staging).1, State.staged, staging]
    rfl

theorem State.tryRead_view (s : State) (r : ReadRequest) : s.SameView (s.tryRead r) :=
  .of_store (by simp) (by simp)

theorem State.arbiterLow_view {s t : State} (h : s.arbiterLow = some t) : s.SameView t := by
  unfold State.arbiterLow at h
  split at h
  · obtain rfl := Option.some.inj h
    exact .of_store (by simp) (by simp)
  · split at h
    · obtain rfl := Option.some.inj h
      exact s.takeWrite_view
    · split at h
      · split at h
        · obtain rfl := Option.some.inj h
          exact .of_store (by simp) (by simp)
        · cases h
      · cases h

theorem State.arbiterStep_view {s t : State} (h : s.arbiterStep = some t) : s.SameView t := by
  unfold State.arbiterStep at h
  split at h
  · cases h
  · split at h
    · obtain rfl := Option.some.inj h
      exact s.takeWrite_view
    · split at h
      · obtain rfl := Option.some.inj h
        exact .of_store (by simp) (by simp)
      · exact State.arbiterLow_view h

/-! ## The order of the units (log 8) -/

section
variable {s : State}

theorem State.progress_of_not_serving (h : s.member.phase.serving = false) :
    s.progress = s.arbiterStep := by
  simp [State.progress, h]

theorem State.progress_of_serving (h : s.member.phase.serving = true) :
    s.progress = ((s.serveStep <|> s.cursorStep <|> s.fetchStep) <|> s.arbiterStep) := by
  simp [State.progress, h]

/-- The first unit that has something to do acts. -/
theorem State.progress_spec (h : s.member.phase.serving = true) :
    (∀ t, s.serveStep = some t → s.progress = some t) ∧
    (∀ t, s.serveStep = none → s.cursorStep = some t → s.progress = some t) ∧
    (∀ t, s.serveStep = none → s.cursorStep = none → s.fetchStep = some t →
      s.progress = some t) ∧
    (s.serveStep = none → s.cursorStep = none → s.fetchStep = none →
      s.progress = s.arbiterStep) := by
  rw [State.progress_of_serving h]
  refine ⟨fun t serve => ?_, fun t serve cursor => ?_, fun t serve cursor fetch => ?_,
    fun serve cursor fetch => ?_⟩
  · simp [serve]
  · simp [serve, cursor]
  · simp [serve, cursor, fetch]
  · simp [serve, cursor, fetch]

theorem State.progress_view {t : State} (h : s.progress = some t) : s.SameView t := by
  cases serving : s.member.phase.serving with
  | false =>
    rw [State.progress_of_not_serving serving] at h
    exact State.arbiterStep_view h
  | true =>
    obtain ⟨first, second, third, last⟩ := State.progress_spec serving
    match serve : s.serveStep, cursor : s.cursorStep, fetch : s.fetchStep with
    | some u, _, _ =>
      obtain rfl := Option.some.inj ((first u serve).symm.trans h)
      obtain ⟨-, member, store, -⟩ := State.serveStep_keeps serve
      exact .of_store store member
    | none, some u, _ =>
      obtain rfl := Option.some.inj ((second u serve cursor).symm.trans h)
      exact State.cursorStep_view cursor
    | none, none, some u =>
      obtain rfl := Option.some.inj ((third u serve cursor fetch).symm.trans h)
      obtain ⟨-, member, store, -⟩ := State.fetchStep_keeps fetch
      exact .of_store store member
    | none, none, none =>
      rw [last serve cursor fetch] at h
      exact State.arbiterStep_view h

theorem State.settleFor_of_idle (h : s.progress = none) (n : Nat) : s.settleFor n = s := by
  cases n with
  | zero => rfl
  | succ n => simp only [State.settleFor, h]

theorem State.settleFor_of_progress {t : State} (h : s.progress = some t) (n : Nat) :
    s.settleFor (n + 1) = t.settleFor n := by
  simp only [State.settleFor, h]

theorem State.settleFor_view (s : State) (n : Nat) : s.SameView (s.settleFor n) := by
  induction n generalizing s with
  | zero => exact .of_store rfl rfl
  | succ n ih =>
    cases h : s.progress with
    | none => rw [State.settleFor_of_idle h]; exact .of_store rfl rfl
    | some t =>
      rw [State.settleFor_of_progress h]
      exact (State.progress_view h).trans (ih t) (State.progress_keeps h).1

theorem State.settle_of_live (h : s.live = true) : s.settle = s.settleFor 4096 := if_pos h

theorem State.settle_view (s : State) : s.SameView s.settle := by
  cases h : s.live with
  | true => rw [State.settle_of_live h]; exact s.settleFor_view 4096
  | false => rw [State.settle_of_not_live h]; exact .of_store rfl rfl

theorem State.settle_settledFrom (s : State) : s.SettledFrom s.settle where
  control := by simp
  pending := by simp
  mount := by simp
  clock := by simp
  map := by simp
  staged := s.settle_view.1
  tick := by simp
  fault := by simp
  timer := by simp
  due := by simp
  listen := by simp
  peers := s.settle_view.2
  retired := by simp
  discards := by simp
  beat := by simp
  ignoring := by simp
  outcome := by simp
  tag := by simp

/-- Idle units at a busy port have nothing to do. -/
theorem State.progress_of_idle (busy : s.media.port.isSome = true)
    (idle : s.member.phase.serving = true →
      s.repair.serve = none ∧ s.repair.serveQueue = [] ∧ s.repair.cursor.state ≠ .pushing ∧
        (s.repair.fetch.state ≠ .idle ∨ s.repair.list = [])) : s.progress = none := by
  have port : s.arbiterStep = none :=
    State.arbiterStep_of_busy (Option.isSome_iff_ne_none.mp busy)
  cases serving : s.member.phase.serving with
  | false => rw [State.progress_of_not_serving serving, port]
  | true =>
    obtain ⟨serve, queue, cursor, fetch⟩ := idle serving
    have serve' : s.serveStep = none := by simp [State.serveStep, serve, queue]
    have cursor' : s.cursorStep = none := if_neg fun h => cursor h.1
    have fetch' : s.fetchStep = none := if_neg fun h => fetch.elim (· h.1) h.2
    rw [(State.progress_spec serving).2.2.2 serve' cursor' fetch', port]

end

/-! ## The serve slot (R162 to R165) -/

section
variable {s : State} {job : ServeJob}

theorem State.serveStep_of_job (serve : s.repair.serve = some job) :
    (job.stage ≠ .ready → s.serveStep = none) ∧
    (∀ block, job.stage = .ready → job.request.kind = .fetch block →
      s.serveStep = some (s.serveFetch job block)) ∧
    ∀ range versions, job.stage = .ready → job.request.kind = .digest range versions →
      s.serveStep = some (s.serveDigest job range versions) := by
  refine ⟨fun waits => ?_, fun block ready kind => ?_, fun range versions ready kind => ?_⟩
  · cases stage : job.stage with
    | ready => exact absurd stage waits
    | reading | placing => simp [State.serveStep, serve, stage]
  · simp [State.serveStep, serve, ready, kind]
  · simp [State.serveStep, serve, ready, kind]

theorem State.serveFetch_spec (s : State) (job : ServeJob) (block : BitVec 16) :
    let m := s.entryOf block.toNat
    (m.condition = .unwritten ∨ m.condition = .lost →
      s.serveFetch job block = s.answerNotHeld job block) ∧
    (m.condition = .staged → s.serveFetch job block =
      s.placeAnswer job true (.repair block m.version (s.stagedData block.toNat))) ∧
    (m.condition = .clean → s.serveFetch job block = s.readForServe job block.toNat) := by
  refine ⟨fun h => ?_, fun h => ?_, fun h => ?_⟩
  · rcases h with h | h <;> simp [State.serveFetch, h]
  · simp [State.serveFetch, h]
  · simp [State.serveFetch, h]

theorem MapEntry.held_iff (e : MapEntry) :
    e.held = true ↔ e.condition = .clean ∨ e.condition = .staged := by
  simp [MapEntry.held]

/-- One offset of a DIGEST (R164). -/
theorem State.serveDigest_of_offset (s : State) {job : ServeJob} (range : Fin 64)
    (versions : Vector Version 64) (i : Fin 64) (offset : job.offset = i.val) :
    let b := 64 * range.val + i.val
    let m := s.entryOf b
    let d := received (versions.get i)
    let sends := (m.condition = .clean ∨ m.condition = .staged) ∧ newer m.version d = true
    let wants := newer d m.version = true ∨ (m.condition = .lost ∧ d ≠ .nil)
    (sends → m.condition = .staged → s.serveDigest job range versions =
      s.placeAnswer { job with sent := job.sent + 1 } false
        (.repair (BitVec.ofNat 16 b) m.version (s.stagedData b))) ∧
    (sends → m.condition = .clean → s.serveDigest job range versions = s.readForServe job b) ∧
    (¬ sends → wants → s.serveDigest job range versions =
      s.setServe (some { job with offset := job.offset + 1
                                  want := addOffset job.want job.offset })) ∧
    (¬ sends → ¬ wants → s.serveDigest job range versions =
      s.setServe (some { job with offset := job.offset + 1 })) := by
  intro b m d sends wants
  have small : job.offset < 64 := offset ▸ i.isLt
  have index : (⟨job.offset, small⟩ : Fin 64) = i := Fin.ext offset
  have judged : s.serveDigest job range versions =
      if m.held ∧ newer m.version d then
        if m.condition = .staged then s.placeAnswer { job with sent := job.sent + 1 } false
          (.repair (BitVec.ofNat 16 b) m.version (s.stagedData b))
        else s.readForServe job b
      else if newer d m.version ∨ (m.condition = .lost ∧ d ≠ .nil) then
        s.setServe (some { job with offset := job.offset + 1
                                    want := addOffset job.want job.offset })
      else s.setServe (some { job with offset := job.offset + 1 }) := by
    refine (dif_pos small).trans ?_
    rw [index, offset]
  have isSend : (m.held = true ∧ newer m.version d = true) ↔ sends :=
    and_congr_left fun _ => m.held_iff
  rw [judged]
  refine ⟨fun h staged => ?_, fun h clean => ?_, fun h want => ?_, fun h want => ?_⟩
  · rw [if_pos (isSend.mpr h), if_pos staged]
  · rw [if_pos (isSend.mpr h), if_neg (by simp [clean])]
  · rw [if_neg (mt isSend.mp h), if_pos want]
  · rw [if_neg (mt isSend.mp h), if_neg want]

theorem State.serveDigest_of_end (s : State) {job : ServeJob} (range : Fin 64)
    (versions : Vector Version 64) (h : 64 ≤ job.offset) :
    s.serveDigest job range versions =
      s.placeAnswer job true (.rangeDone range (byteOf job.sent) job.want) :=
  dif_neg (Nat.not_lt.mpr h)

/-- The slot goes on as the frame it waited to place joins the out-queue (R162, R165). -/
theorem State.join_serve (serve : s.repair.serve = some job) {i : Nat} {last : Bool} (f : Frame)
    (stage : job.stage = .placing i last) :
    (s.join i f).repair.serve =
      if last then none else some { job with offset := job.offset + 1, stage := .ready } := by
  show s.repair.serve.bind (fun job => job.joined i) = _
  simp [serve, ServeJob.joined, stage]

theorem State.reportServe_spec (serve : s.repair.serve = some job) {i b : Nat}
    (stage : job.stage = .reading i) :
    (∀ v d block, job.request.kind = .fetch block →
      s.report ⟨.serve, i, b⟩ (.readable v d) =
        s.placeAnswer job true (.repair (BitVec.ofNat 16 b) v d)) ∧
    (∀ v d range versions, job.request.kind = .digest range versions →
      s.report ⟨.serve, i, b⟩ (.readable v d) =
        s.placeAnswer { job with sent := job.sent + 1 } false
          (.repair (BitVec.ofNat 16 b) v d)) ∧
    ∀ report, report = .declined ∨ report = .unreadable →
      s.report ⟨.serve, i, b⟩ report = s.setServe (some { job with stage := .ready }) := by
  refine ⟨fun v d block kind => ?_, fun v d range versions kind => ?_, fun report other => ?_⟩
  · simp [State.report, State.reportServe, serve, stage, kind]
  · simp [State.report, State.reportServe, serve, stage, kind]
  · rcases other with rfl | rfl <;> simp [State.report, State.reportServe, serve, stage]

end

/-- Settles O3: by the units in their order, and for the serve slot by its stage, its request and
the entry of the block. -/
theorem settlingKeeps : Obligations.SettlingKeeps := by
  refine ⟨fun s => ⟨s.settle_settledFrom, State.settle_of_not_live, State.settle_of_live,
    fun n idle => State.settleFor_of_idle idle n, fun n t h => State.settleFor_of_progress h n,
    State.progress_of_not_serving, State.progress_spec, fun busy idle => ?_⟩,
    fun s free => ⟨fun empty => ?_, fun r rest queue => ?_⟩, fun job s serve => ?_⟩
  · have nothing := State.progress_of_idle busy idle
    cases live : s.live with
    | true => rw [State.settle_of_live live, State.settleFor_of_idle nothing]
    | false => exact State.settle_of_not_live live
  · simp [State.serveStep, free, empty]
  · simp only [State.serveStep, free, queue]
    rfl
  · obtain ⟨waits, fetches, digests⟩ := State.serveStep_of_job serve
    refine ⟨waits, fun block ready kind => ?_, fun range versions ready kind => ⟨fun i offset => ?_,
      fun ended => ?_⟩, fun i last f stage => State.join_serve serve f stage, fun i b stage => ?_⟩
    · rw [fetches block ready kind]
      obtain ⟨gone, staged, clean⟩ := s.serveFetch_spec job block
      exact ⟨fun h => congrArg some (gone h), fun h => congrArg some (staged h),
        fun h => congrArg some (clean h)⟩
    · rw [digests range versions ready kind]
      obtain ⟨staged, clean, wants, passes⟩ := s.serveDigest_of_offset range versions i offset
      exact ⟨fun h k => congrArg some (staged h k), fun h k => congrArg some (clean h k),
        fun h k => congrArg some (wants h k), fun h k => congrArg some (passes h k)⟩
    · rw [digests range versions ready kind, s.serveDigest_of_end range versions ended]
      rfl
    · exact State.reportServe_spec serve stage

end Sys2Proof.Machine
end

section
/-! PROOF. The judgment of an offer by its version, and what an acceptance does (O23, O25). -/

namespace Sys2Proof.Machine

/-! ## The judgment (R9, R10) -/

section
variable {s : State} {b : Nat} {v w : Version} {source : Source}

theorem State.hasWaiting_iff :
    s.hasWaiting b = true ↔ ∃ e, e ∈ s.store.staging ∧ e.block = b ∧ e.state = .waiting := by
  simp [State.hasWaiting]

theorem State.roomFor_iff :
    s.roomFor b source = true ↔
      ((∃ e, e ∈ s.store.staging ∧ e.block = b ∧ e.state = .waiting) ∨
        s.store.staging.length < 16) ∧ (source = .push → s.line.queue.length < 16) := by
  have unfolded : s.roomFor b source =
    ((s.hasWaiting b || decide (s.store.staging.length < 16)) &&
      (decide (source ≠ .push) || decide (s.line.queue.length < 16))) := rfl
  simp [unfolded, State.hasWaiting_iff, Decidable.imp_iff_not_or]

/-- The version is one that the entry wants: newer, or its own where the entry is LOST (R10). -/
def MapEntry.Wants (m : MapEntry) (w : Version) : Prop :=
  newer w m.version = true ∨ (w = m.version ∧ m.condition = .lost ∧ w ≠ .nil)

theorem State.judge_other (hb : b < 4096) (other : source ≠ .scrub) :
    s.judge b v source = s.judgeOther b (received v) source :=
  (if_neg (Nat.not_le.mpr hb)).trans (if_neg other)

theorem State.judgeOther_of_wanted (wanted : (s.entryOf b).Wants w) :
    s.judgeOther b w source = if s.roomFor b source then .accept else .busy :=
  if_pos wanted

theorem State.judgeOther_of_held (same : w = (s.entryOf b).version)
    (held : (s.entryOf b).condition ≠ .lost) : s.judgeOther b w source = .duplicate := by
  have unwanted : ¬ (s.entryOf b).Wants w := by
    rintro (newerThan | ⟨-, lost, -⟩)
    · simp [same] at newerThan
    · exact held lost
  exact (if_neg unwanted).trans (if_pos ⟨same, held⟩)

theorem State.judgeOther_of_stale
    (stale : newer (s.entryOf b).version w = true ∨
      (w = (s.entryOf b).version ∧ (s.entryOf b).condition = .lost ∧ w = .nil)) :
    s.judgeOther b w source = .stale (s.entryOf b).version := by
  have unwanted : ¬ (s.entryOf b).Wants w := by
    rcases stale with older | ⟨same, -, nil⟩
    · rintro (newerThan | ⟨same, -⟩)
      · simp [newer_asymm older] at newerThan
      · simp [same] at older
    · rintro (newerThan | ⟨-, -, written⟩)
      · simp [same] at newerThan
      · exact written nil
  have unequal : ¬ (w = (s.entryOf b).version ∧ (s.entryOf b).condition ≠ .lost) := by
    rintro ⟨same, held⟩
    rcases stale with older | ⟨-, lost, -⟩
    · simp [same] at older
    · exact held lost
  exact (if_neg unwanted).trans (if_neg unequal)

end

/-- Settles O23, by the branches of the judgment. -/
theorem offersAreJudgedByVersion : Obligations.OffersAreJudgedByVersion := by
  intro b v d source s other
  refine ⟨fun hb => ?_, fun hb => ⟨fun wanted room => ?_, fun wanted full => ?_, fun same held => ?_,
    fun stale => ?_⟩⟩
  · exact State.offer_of_judge_ne_accept d (if_pos hb) (by simp)
  · have accepted : s.judge b v source = .accept := by
      rw [State.judge_other hb other, State.judgeOther_of_wanted wanted,
        if_pos (State.roomFor_iff.mpr room)]
    rw [State.offer_of_judge_accept d accepted]
  · have busy : s.judge b v source = .busy := by
      rw [State.judge_other hb other, State.judgeOther_of_wanted wanted,
        if_neg (mt State.roomFor_iff.mp full)]
    exact State.offer_of_judge_ne_accept d busy (by simp)
  · exact State.offer_of_judge_ne_accept d
      ((State.judge_other hb other).trans (State.judgeOther_of_held same held)) (by simp)
  · exact State.offer_of_judge_ne_accept d
      ((State.judge_other hb other).trans (State.judgeOther_of_stale stale)) (by simp)

/-! ## A withdrawn frame stays withdrawn (R83) -/

/-- The frame neither waits for a place nor stands unsent in the queue. -/
def LineController.Gone (l : LineController) (id : Nat) : Prop :=
  (∀ w, w ∈ l.waiting → w.id ≠ id) ∧ ∀ q, q ∈ l.queue → q.id = id → q.state ≠ .unsent

section
variable {s : State} {id : Nat}

theorem State.join_gone (h : s.line.Gone id) {k : Nat} (apart : k ≠ id) (f : Frame) :
    (s.join k f).line.Gone id := by
  refine ⟨h.1, fun q hq same => ?_⟩
  rcases (mem_enqueue ..).mp hq with rfl | hq
  · exact absurd same apart
  · exact h.2 q hq same

theorem State.handOut_gone (h : s.line.Gone id) : s.handOut.line.Gone id := by
  unfold State.handOut
  split
  · split
    · exact h
    · rename_i w best
      have waits := bestWaiting_mem best
      have start : (s.onLine fun l =>
          { l with waiting := l.waiting.filter (·.id ≠ w.id) }).line.Gone id :=
        ⟨fun x hx => h.1 x (List.mem_filter.mp hx).1, h.2⟩
      exact State.join_gone start (h.1 w waits) _
  · exact h

theorem State.leaveQueue_gone (h : s.line.Gone id) (k : Nat) : (s.leaveQueue k).line.Gone id :=
  State.handOut_gone ⟨h.1, fun q hq => h.2 q (List.mem_of_mem_eraseP hq)⟩

theorem QueuedFrame.withdrawn_state (q : QueuedFrame) :
    q.withdrawn.state = .unsent ↔ q.state = .unsent := by
  unfold QueuedFrame.withdrawn
  split <;> simp [*]

@[simp] theorem QueuedFrame.withdrawn_id (q : QueuedFrame) : q.withdrawn.id = q.id := by
  unfold QueuedFrame.withdrawn
  split <;> rfl

theorem State.withdraw_gone (h : s.line.Gone id) (k : Nat) : (s.withdraw k).line.Gone id := by
  unfold State.withdraw
  split
  · exact ⟨fun w hw => h.1 w (List.mem_filter.mp hw).1, h.2⟩
  split
  · exact h
  split
  · exact State.leaveQueue_gone h k
  · refine ⟨h.1, fun q hq same => ?_⟩
    obtain ⟨r, hr, rfl⟩ := List.mem_map.mp hq
    split at same <;> split
    · rename_i marks _
      exact mt r.withdrawn_state.mp (h.2 r hr (by simpa using same))
    · contradiction
    · contradiction
    · exact h.2 r hr same

theorem State.withdrawEach_gone (h : s.line.Gone id) (ids : List Nat) :
    (ids.foldl State.withdraw s).line.Gone id := by
  induction ids generalizing s with
  | nil => exact h
  | cons k rest ih => exact ih (State.withdraw_gone h k)

theorem State.withdrawAll_gone (h : s.line.Gone id) (ids : List Nat) :
    (s.withdrawAll ids).line.Gone id := by
  have start : (s.onLine fun l =>
      { l with waiting := l.waiting.filter (!ids.contains ·.id) }).line.Gone id :=
    ⟨fun w hw => h.1 w (List.mem_filter.mp hw).1, h.2⟩
  exact State.withdrawEach_gone start ids

theorem State.finishProposal_gone (h : s.line.Gone id) (i : Fin 8) (r : Result)
    (w : Option Version) : (s.finishProposal i r w).line.Gone id := by
  unfold State.finishProposal
  dsimp only
  split
  · exact State.withdrawAll_gone (s := s.setProposal i _) h _
  · exact h

theorem State.supersede_gone (h : s.line.Gone id) (b : Nat) (v : Version) (l : List (Fin 8)) :
    (l.foldl (fun s i => s.supersedeAt b v i) s).line.Gone id := by
  induction l generalizing s with
  | nil => exact h
  | cons i rest ih =>
    refine ih ?_
    unfold State.supersedeAt
    dsimp only
    split
    · exact State.finishProposal_gone h i _ _
    · exact h

end

/-- The frame does not wait for a place, and stands at most once in the queue. -/
def LineController.Sole (l : LineController) (id : Nat) : Prop :=
  (∀ w, w ∈ l.waiting → w.id ≠ id) ∧ (l.queue.map (·.id)).count id ≤ 1

section
variable {s : State} {id : Nat}

theorem count_enqueue {q : QueuedFrame} (apart : q.id ≠ id) (l : List QueuedFrame) :
    ((enqueue q l).map (·.id)).count id = (l.map (·.id)).count id := by
  rw [enqueue_eq, List.map_append, List.map_cons, List.count_append, List.count_cons_of_ne apart,
    ← List.count_append, ← List.map_append, List.takeWhile_append_dropWhile]

theorem State.join_sole (h : s.line.Sole id) {k : Nat} (apart : k ≠ id) (f : Frame) :
    (s.join k f).line.Sole id :=
  ⟨h.1, (count_enqueue (q := ⟨k, s.atJoining f, .unsent⟩) apart s.line.queue).trans_le h.2⟩

theorem State.handOut_sole (h : s.line.Sole id) : s.handOut.line.Sole id := by
  unfold State.handOut
  split
  · split
    · exact h
    · rename_i w best
      have waits := bestWaiting_mem best
      have start : (s.onLine fun l =>
          { l with waiting := l.waiting.filter (·.id ≠ w.id) }).line.Sole id :=
        ⟨fun x hx => h.1 x (List.mem_filter.mp hx).1, h.2⟩
      exact State.join_sole start (h.1 w waits) _
  · exact h

theorem State.leaveQueue_sole (h : s.line.Sole id) (k : Nat) : (s.leaveQueue k).line.Sole id :=
  State.handOut_sole
    ⟨h.1, ((List.eraseP_sublist.map QueuedFrame.id).count_le id).trans h.2⟩

theorem map_id_withdrawn (k : Nat) (l : List QueuedFrame) :
    (l.map fun q => if q.id = k then q.withdrawn else q).map (·.id) = l.map (·.id) := by
  rw [List.map_map]
  refine List.map_congr_left fun q _ => ?_
  simp only [Function.comp_apply]
  split <;> simp

theorem State.withdraw_sole (h : s.line.Sole id) (k : Nat) : (s.withdraw k).line.Sole id := by
  unfold State.withdraw
  split
  · exact ⟨fun w hw => h.1 w (List.mem_filter.mp hw).1, h.2⟩
  split
  · exact h
  split
  · exact State.leaveQueue_sole h k
  · exact ⟨h.1, (congrArg _ (map_id_withdrawn k s.line.queue)).trans_le h.2⟩

/-- A frame that stands once in the queue is gone by its withdrawal. -/
theorem State.withdraw_self_gone (h : s.line.Sole id) : (s.withdraw id).line.Gone id := by
  obtain ⟨waitless, sole⟩ := h
  have quiet : ¬ s.line.waiting.any (·.id = id) = true := by simpa using waitless
  rw [State.withdraw, if_neg quiet]
  split
  · rename_i absent
    refine ⟨waitless, fun q hq same => ?_⟩
    simpa [same] using List.find?_eq_none.mp absent q hq
  · rename_i q found
    obtain ⟨named, pre, post, split, before⟩ := List.find?_eq_some_iff_append.mp found
    have named : q.id = id := by simpa using named
    have before : ∀ r, r ∈ pre → r.id ≠ id := by simpa using before
    have after : ∀ r, r ∈ post → r.id ≠ id := by
      intro r hr same
      have twice : 1 ≤ (post.map (·.id)).count id :=
        List.one_le_count_iff.mpr (List.mem_map.mpr ⟨r, hr, same⟩)
      rw [split, List.map_append, List.count_append, List.map_cons, named,
        List.count_cons_self] at sole
      omega
    split
    · have erased : s.line.queue.eraseP (·.id = id) = pre ++ post := by
        rw [split, List.eraseP_append_right _ (by simpa using before),
          List.eraseP_cons_of_pos (by simpa using named)]
      refine State.handOut_gone (s := s.onLine _) ⟨waitless, fun r hr same => ?_⟩
      have hr : r ∈ pre ++ post := erased ▸ hr
      rcases List.mem_append.mp hr with hr | hr
      · exact absurd same (before r hr)
      · exact absurd same (after r hr)
    · rename_i onLine
      refine ⟨waitless, fun r hr same => ?_⟩
      obtain ⟨x, hx, rfl⟩ := List.mem_map.mp hr
      rw [split, List.mem_append, List.mem_cons] at hx
      have same : x.id = id := by
        split at same
        · assumption
        · exact same
      rw [if_pos same]
      rcases hx with hx | rfl | hx
      · exact absurd same (before x hx)
      · exact mt x.withdrawn_state.mp onLine
      · exact absurd same (after x hx)

/-- Every frame of a withdrawal of several is gone, where no number stands twice in the queue. -/
theorem State.withdrawAll_ends {ids : List Nat} (nodup : (s.line.queue.map (·.id)).Nodup)
    (member : id ∈ ids) : (s.withdrawAll ids).line.Gone id := by
  have start : (s.onLine fun l =>
      { l with waiting := l.waiting.filter (!ids.contains ·.id) }).line.Sole id := by
    refine ⟨fun w hw same => ?_, List.nodup_iff_count_le_one.mp nodup id⟩
    have := (List.mem_filter.mp hw).2
    simp [same, member] at this
  rw [State.withdrawAll]
  generalize s.onLine _ = t at start ⊢
  clear nodup
  induction ids generalizing t with
  | nil => simp at member
  | cons k rest ih =>
    by_cases same : k = id
    · subst same
      exact State.withdrawEach_gone (State.withdraw_self_gone start) rest
    · exact ih (List.mem_of_ne_of_mem (Ne.symm same) member) _ (State.withdraw_sole start k)

/-! ## Where no frame waits, a withdrawal moves no producer on -/

theorem State.leaveQueue_of_no_waiting (idle : s.line.waiting = []) (k : Nat) :
    s.leaveQueue k = s.onLine fun l => { l with queue := l.queue.eraseP (·.id = k) } := by
  rw [State.leaveQueue, State.handOut, State.onLine_line, idle]
  split <;> rfl

theorem State.withdraw_of_no_waiting (idle : s.line.waiting = []) (k : Nat) :
    (s.withdraw k).line.waiting = [] ∧ (s.withdraw k).repair = s.repair := by
  rw [State.withdraw, idle]
  repeat' split
  · contradiction
  · exact ⟨idle, rfl⟩
  · rw [State.leaveQueue_of_no_waiting idle]
    exact ⟨idle, rfl⟩
  · exact ⟨idle, rfl⟩

theorem State.withdrawAll_of_no_waiting (idle : s.line.waiting = []) (ids : List Nat) :
    (s.withdrawAll ids).line.waiting = [] ∧ (s.withdrawAll ids).repair = s.repair := by
  have each : ∀ (l : List Nat) (t : State), t.line.waiting = [] →
      (l.foldl State.withdraw t).line.waiting = [] ∧
        (l.foldl State.withdraw t).repair = t.repair := by
    intro l
    induction l with
    | nil => exact fun _ h => ⟨h, rfl⟩
    | cons k rest ih =>
      intro t h
      obtain ⟨waiting, repair⟩ := State.withdraw_of_no_waiting h k
      obtain ⟨waiting, repair'⟩ := ih _ waiting
      exact ⟨waiting, repair'.trans repair⟩
  exact each ids _ (by simp [idle])

theorem State.supersede_of_no_waiting (idle : s.line.waiting = []) (b : Nat) (v : Version)
    (l : List (Fin 8)) :
    (l.foldl (fun s i => s.supersedeAt b v i) s).repair = s.repair := by
  have one : ∀ (t : State) (i : Fin 8), t.line.waiting = [] →
      (t.supersedeAt b v i).line.waiting = [] ∧ (t.supersedeAt b v i).repair = t.repair := by
    intro t i h
    unfold State.supersedeAt State.finishProposal
    dsimp only
    repeat' split
    · exact State.withdrawAll_of_no_waiting (s := t.setProposal i _) h _
    · exact ⟨h, rfl⟩
    · exact ⟨h, rfl⟩
  induction l generalizing s with
  | nil => rfl
  | cons i rest ih =>
    obtain ⟨waiting, repair⟩ := one s i idle
    exact (ih waiting).trans repair

end

end Sys2Proof.Machine
end

section
/-! PROOF. What an acceptance does (O25): the advance notice entry by entry, what the repair engine
makes of a block that is repaired, and the acceptance as a whole. -/

namespace Sys2Proof.Machine

/-! ## The advance notice (R15, R133, R147, R170) -/

section
variable (s : State) (b : Nat) (v : Version)

/-- What the advance notice makes of a proposal. -/
def Proposal.advanced (b : Nat) (v : Version) (p : Proposal) : Proposal :=
  if p.running = true ∧ p.block = b ∧ newer v p.version = true then
    p.ended .superseded (some v)
  else p

/-- What the advance notice makes of a read entry of the station with the number given. -/
def ReadEntry.advanced (own : StationNo) (b : Nat) (v : Version) (e : ReadEntry) : ReadEntry :=
  if (e.state = .querySending ∨ e.state = .queryAwaiting) ∧ e.block = b then
    { e with reports := e.reports.set own (some ⟨v, true⟩) }
  else e

theorem State.proposal_supersedeAt (i j : Fin 8) :
    (s.supersedeAt b v i).proposal j =
      if i = j then (s.proposal i).advanced b v else s.proposal j := by
  by_cases acts : (s.proposal i).running = true ∧ (s.proposal i).block = b ∧
      newer v (s.proposal i).version = true
  · rw [State.supersedeAt, if_pos acts.2, State.proposal_finishProposal _ _ acts.1,
      Proposal.advanced, if_pos acts]
  · have idle : s.supersedeAt b v i = s := by
      unfold State.supersedeAt
      dsimp only
      split
      · rename_i old
        exact State.finishProposal_of_not_running _ _ (by simpa using fun h => acts ⟨h, old⟩)
      · rfl
    rw [idle, Proposal.advanced, if_neg acts]
    split
    · rename_i same
      rw [same]
    · rfl

theorem State.readEntry_noteAdvanceAt (i j : Fin 4) :
    (s.noteAdvanceAt b v i).readEntry j =
      if i = j then (s.readEntry i).advanced s.own b v else s.readEntry j := by
  unfold State.noteAdvanceAt ReadEntry.advanced ReadEntry.collecting
  simp only [Bool.or_eq_true, decide_eq_true_eq]
  split
  · exact s.readEntry_setRead i j _
  · split
    · rename_i same
      rw [same]
    · rfl

theorem State.proposal_advance (i : Fin 8) :
    (s.advance b v).proposal i = (s.proposal i).advanced b v := by
  have folded := foldl_finRange_get (fun s i => State.supersedeAt s b v i) State.proposal
    (fun _ => ()) (fun _ _ p => p.advanced b v)
    (fun s i => (s.proposal_supersedeAt b v i i).trans (if_pos rfl))
    (fun s i j apart => (s.proposal_supersedeAt b v i j).trans (if_neg apart))
    (fun _ _ => rfl) s i
  rw [← folded]
  exact State.proposal_of (by simp [State.advance]) i

theorem State.readEntry_advance (i : Fin 4) :
    (s.advance b v).readEntry i = (s.readEntry i).advanced s.own b v := by
  have noted := fun t => foldl_finRange_get (fun s i => State.noteAdvanceAt s b v i)
    State.readEntry State.own (fun own _ e => e.advanced own b v)
    (fun s i => (s.readEntry_noteAdvanceAt b v i i).trans (if_pos rfl))
    (fun s i j apart => (s.readEntry_noteAdvanceAt b v i j).trans (if_neg apart))
    (fun s i => State.own_of (by simp)) t i
  have superseded : ∀ l : List (Fin 8),
      (l.foldl (fun s i => State.supersedeAt s b v i) s).readEntry i = s.readEntry i ∧
        (l.foldl (fun s i => State.supersedeAt s b v i) s).own = s.own := fun l => by
    have kept := foldl_keeps (fun s : State => (s.reads, s.control))
      (fun s i => s.supersedeAt b v i) (fun s i => by simp) l s
    simp only [Prod.mk.injEq] at kept
    exact ⟨State.readEntry_of kept.1 i, State.own_of kept.2⟩
  obtain ⟨entry, own⟩ := superseded (List.finRange 8)
  have last : (s.advance b v).readEntry i =
      (((List.finRange 8).foldl (fun s i => s.supersedeAt b v i) s).noteAdvance b v).readEntry i :=
    State.readEntry_of (State.onCursor_reads ..) i
  rw [last, ← entry, ← own]
  exact noted _

theorem State.advance_fetch : (s.advance b v).repair.fetch = s.repair.fetch := by
  have kept := foldl_keeps (fun s : State => s.repair.fetch) (fun s i => State.supersedeAt s b v i)
    (fun s i => by
      unfold State.supersedeAt
      dsimp only
      split <;> simp) (List.finRange 8) s
  simpa [State.advance] using kept

theorem State.advance_line :
    (s.advance b v).line = ((List.finRange 8).foldl (fun s i => s.supersedeAt b v i) s).line := by
  simp [State.advance]

theorem State.advance_pushes :
    (s.advance b v).repair.cursor.pushes =
      ((List.finRange 8).foldl (fun s i => s.supersedeAt b v i) s).repair.cursor.pushes.map
        (PendingPush.advance b v) := by
  simp [State.advance]

theorem PendingPush.version_of_advance {p : PendingPush} (same : (p.advance b v).block = b)
    (waits : (p.advance b v).state = .notSent) : (p.advance b v).version = v := by
  by_cases acts : p.block = b ∧ p.state = .notSent
  · simp [PendingPush.advance, if_pos acts]
  · rw [PendingPush.advance, if_neg acts] at same waits
    exact absurd ⟨same, waits⟩ acts

end

/-! ## A repaired block (R14, R160) -/

section
variable {s : State} {b : Nat}

theorem State.repaired_of_mem (listed : b ∈ s.repair.list) :
    s.repaired b =
      (if s.repair.fetch.block = some b then
        ((s.unlistRepair b).raise .blockRepaired (.block b) .none).endFetch
      else (s.unlistRepair b).raise .blockRepaired (.block b) .none) :=
  if_pos (List.contains_iff_mem.mpr listed)

@[simp] theorem State.endFetch_fetch (s : State) : s.endFetch.repair.fetch = .idle := by
  simp [State.endFetch]

theorem State.repaired_list (s : State) (b : Nat) :
    (s.repaired b).repair.list = s.repair.list.filter (· ≠ b) := by
  by_cases listed : b ∈ s.repair.list
  · rw [State.repaired_of_mem listed]
    split <;> simp [State.unlistRepair]
  · rw [State.repaired_of_not_mem listed, List.filter_eq_self.mpr]
    intro k hk
    simpa using ne_of_mem_of_not_mem hk listed

theorem State.repaired_events (s : State) (b : Nat) :
    (s.repaired b).client.events =
      (if b ∈ s.repair.list then s.client.raise .blockRepaired (.block b) .none
      else s.client).events := by
  by_cases listed : b ∈ s.repair.list
  · rw [State.repaired_of_mem listed, if_pos listed]
    split <;> simp [State.raise]
  · rw [State.repaired_of_not_mem listed, if_neg listed]

theorem State.repaired_fetch (s : State) (b : Nat) :
    (s.repaired b).repair.fetch =
      if b ∈ s.repair.list ∧ s.repair.fetch.block = some b then FetchSlot.idle
      else s.repair.fetch := by
  by_cases listed : b ∈ s.repair.list
  · rw [State.repaired_of_mem listed]
    by_cases works : s.repair.fetch.block = some b
    · rw [if_pos works, if_pos ⟨listed, works⟩, State.endFetch_fetch]
    · rw [if_neg works, if_neg fun h => works h.2]
      rfl
  · rw [State.repaired_of_not_mem listed, if_neg fun h => listed h.1]

theorem State.repaired_of_no_waiting (idle : s.line.waiting = []) (b : Nat) :
    (s.repaired b).line.waiting = [] ∧ (s.repaired b).repair.cursor = s.repair.cursor := by
  unfold State.repaired
  split
  · dsimp only
    split
    · obtain ⟨waiting, repair⟩ := State.withdrawAll_of_no_waiting
        (s := ((s.unlistRepair b).raise .blockRepaired (.block b) .none).onFetch fun _ => .idle)
        idle ((s.unlistRepair b).raise .blockRepaired (.block b) .none).repair.fetch.frames
      exact ⟨waiting, (congrArg RepairEngine.cursor repair).trans rfl⟩
    · exact ⟨idle, rfl⟩
  · exact ⟨idle, rfl⟩

/-- The frames of the fetch slot are gone where it works on the block repaired. -/
theorem State.repaired_gone (listed : b ∈ s.repair.list) (works : s.repair.fetch.block = some b)
    (nodup : (s.line.queue.map (·.id)).Nodup) {id : Nat} (member : id ∈ s.repair.fetch.frames) :
    (s.repaired b).line.Gone id := by
  rw [State.repaired_of_mem listed, if_pos works]
  exact State.withdrawAll_ends
    (s := ((s.unlistRepair b).raise .blockRepaired (.block b) .none).onFetch fun _ => .idle)
    nodup member

end

/-! ## The acceptance -/

section
variable {b : Nat} {v : Version} {d : Data} {source : Source} {s t : State}

theorem State.offer_accepts (other : source ≠ .scrub) (h : s.offer b v d source = (t, .accept)) :
    t = s.accept b (received v) d source := by
  by_cases judged : s.judge b v source = .accept
  · rw [State.offer_of_judge_accept d judged, offeredVersion, if_neg other] at h
    exact (Prod.mk.inj h).1.symm
  · rw [State.offer_of_judge_ne_accept d rfl judged] at h
    exact absurd (Prod.mk.inj h).2 judged

/-- An acceptance before its advance notice (R13, R14). -/
def State.taken (s : State) (b : Nat) (v : Version) (d : Data) (source : Source) : State :=
  ((s.take b v d source).unlistScrub b).repaired b

theorem State.accept_eq (s : State) (b : Nat) (v : Version) (d : Data) (source : Source) :
    s.accept b v d source =
      if newer v (s.entryOf b).version = true then (s.taken b v d source).advance b v
      else s.taken b v d source := rfl

@[simp] theorem State.taken_keeps (s : State) (b : Nat) (v : Version) (d : Data)
    (source : Source) :
    (s.taken b v d source).store = (s.take b v d source).store ∧
    (s.taken b v d source).control = s.control ∧
    (s.taken b v d source).media = { s.media with scrub := s.media.scrub.filter (· ≠ b) } ∧
    (s.taken b v d source).writes = s.writes ∧ (s.taken b v d source).reads = s.reads := by
  simp [State.taken, State.unlistScrub]

theorem State.accept_store (s : State) (b : Nat) (v : Version) (d : Data) (source : Source) :
    (s.accept b v d source).store = (s.take b v d source).store := by
  rw [State.accept_eq]
  split <;> simp

theorem State.accept_media (s : State) (b : Nat) (v : Version) (d : Data) (source : Source) :
    (s.accept b v d source).media = { s.media with scrub := s.media.scrub.filter (· ≠ b) } := by
  rw [State.accept_eq]
  split <;> simp

theorem State.take_clock (s : State) (b : Nat) (v : Version) (d : Data) (source : Source) :
    (s.take b v d source).store.clock = s.store.clock := by
  simp

/-- The first WAITING entry of the block gives its place to the version (R11). -/
theorem stage_eq_replace {e : StagingEntry} {pre post : List StagingEntry} (block : e.block = b)
    (waits : e.state = .waiting)
    (first : ∀ x, x ∈ pre → ¬ (x.block = b ∧ x.state = .waiting)) :
    stage b v d source (pre ++ e :: post) = pre ++ ⟨b, v, d, source, .waiting⟩ :: post := by
  induction pre with
  | nil => exact if_pos ⟨block, waits⟩
  | cons x rest ih =>
    rw [List.cons_append, stage, if_neg (first x List.mem_cons_self),
      ih fun y hy => first y (List.mem_cons_of_mem x hy), List.cons_append]

theorem State.proposal_accept (s : State) (b : Nat) (v : Version) (d : Data) (source : Source)
    (i : Fin 8) :
    (s.accept b v d source).proposal i =
      if newer v (s.entryOf b).version = true then (s.proposal i).advanced b v
      else s.proposal i := by
  have kept : (s.taken b v d source).proposal i = s.proposal i := State.proposal_of (by simp) i
  rw [State.accept_eq]
  split
  · rw [State.proposal_advance, kept]
  · exact kept

theorem State.readEntry_accept (s : State) (b : Nat) (v : Version) (d : Data) (source : Source)
    (i : Fin 4) :
    (s.accept b v d source).readEntry i =
      if newer v (s.entryOf b).version = true then (s.readEntry i).advanced s.own b v
      else s.readEntry i := by
  have kept : (s.taken b v d source).readEntry i = s.readEntry i := State.readEntry_of (by simp) i
  have own : (s.taken b v d source).own = s.own := State.own_of (by simp)
  rw [State.accept_eq]
  split
  · rw [State.readEntry_advance, kept, own]
  · exact kept

/-- The station as it has taken the version, before the block is repaired, has its repair engine,
its line and its event queue as they were. -/
theorem State.unlisted_keeps (s : State) (b : Nat) (v : Version) (d : Data) (source : Source) :
    let u := (s.take b v d source).unlistScrub b
    u.repair = s.repair ∧ u.line = s.line ∧ u.client = s.client := by
  simp

theorem State.accept_list (s : State) (b : Nat) (v : Version) (d : Data) (source : Source) :
    (s.accept b v d source).repair.list = s.repair.list.filter (· ≠ b) := by
  obtain ⟨repair, -, -⟩ := s.unlisted_keeps b v d source
  have kept : (s.taken b v d source).repair.list = s.repair.list.filter (· ≠ b) :=
    repair ▸ State.repaired_list _ b
  rw [State.accept_eq]
  split
  · simpa using kept
  · exact kept

theorem State.accept_events (s : State) (b : Nat) (v : Version) (d : Data) (source : Source) :
    (s.accept b v d source).client.events =
      (if b ∈ s.repair.list then s.client.raise .blockRepaired (.block b) .none
      else s.client).events := by
  obtain ⟨repair, -, client⟩ := s.unlisted_keeps b v d source
  have kept := State.repaired_events ((s.take b v d source).unlistScrub b) b
  rw [repair, client, ← State.taken] at kept
  rw [State.accept_eq]
  split
  · simpa using kept
  · exact kept

theorem State.accept_fetch (s : State) (b : Nat) (v : Version) (d : Data) (source : Source) :
    (s.accept b v d source).repair.fetch =
      if b ∈ s.repair.list ∧ s.repair.fetch.block = some b then FetchSlot.idle
      else s.repair.fetch := by
  obtain ⟨repair, -, -⟩ := s.unlisted_keeps b v d source
  have kept := State.repaired_fetch ((s.take b v d source).unlistScrub b) b
  rw [repair] at kept
  rw [State.accept_eq]
  split
  · exact (State.advance_fetch ..).trans kept
  · exact kept

theorem State.accept_gone (listed : b ∈ s.repair.list) (works : s.repair.fetch.block = some b)
    (nodup : (s.line.queue.map (·.id)).Nodup) {id : Nat} (member : id ∈ s.repair.fetch.frames) :
    (s.accept b v d source).line.Gone id := by
  obtain ⟨repair, line, -⟩ := s.unlisted_keeps b v d source
  have gone : (s.taken b v d source).line.Gone id :=
    State.repaired_gone (s := (s.take b v d source).unlistScrub b) (repair ▸ listed)
      (repair ▸ works) (line ▸ nodup) (repair ▸ member)
  rw [State.accept_eq]
  split
  · rw [State.advance_line]
    exact State.supersede_gone gone b v _
  · exact gone

theorem State.accept_pushes_version (advances : newer v (s.entryOf b).version = true)
    {p : PendingPush} (member : p ∈ (s.accept b v d source).repair.cursor.pushes)
    (same : p.block = b) (waits : p.state = .notSent) : p.version = v := by
  rw [State.accept_eq, if_pos advances, State.advance_pushes] at member
  obtain ⟨q, -, rfl⟩ := List.mem_map.mp member
  exact PendingPush.version_of_advance b v same waits

theorem State.accept_pushes_of_no_waiting (idle : s.line.waiting = []) (b : Nat) (v : Version)
    (d : Data) (source : Source) :
    (s.accept b v d source).repair.cursor.pushes =
      if newer v (s.entryOf b).version = true then
        s.repair.cursor.pushes.map (PendingPush.advance b v)
      else s.repair.cursor.pushes := by
  obtain ⟨repair, line, -⟩ := s.unlisted_keeps b v d source
  obtain ⟨waiting, cursor⟩ := State.repaired_of_no_waiting
    (s := (s.take b v d source).unlistScrub b) (line ▸ idle) b
  rw [repair] at cursor
  have cursor : (s.taken b v d source).repair.cursor = s.repair.cursor := cursor
  rw [State.accept_eq]
  split
  · rw [State.advance_pushes,
      State.supersede_of_no_waiting (s := s.taken b v d source) waiting, cursor]
  · rw [cursor]

theorem Proposal.advanced_of_not_acts {p : Proposal}
    (h : ¬ (p.running = true ∧ p.block = b ∧ newer v p.version = true)) : p.advanced b v = p :=
  if_neg h

/-- The proposals after an acceptance (R15, R133): those that it supersedes have finished. -/
theorem State.proposal_accept_spec (s : State) (b : Nat) (v : Version) (d : Data) (source : Source)
    (i : Fin 8) :
    let p := s.proposal i
    let q := (s.accept b v d source).proposal i
    let supersedes := newer v (s.entryOf b).version = true ∧ p.running = true ∧ p.block = b ∧
      newer v p.version = true
    (supersedes → q.state = .finished ∧ q.result = some .superseded ∧ q.winning = some v) ∧
      (¬ supersedes → q = p) := by
  dsimp only
  rw [State.proposal_accept]
  refine ⟨fun ⟨advances, acts⟩ => ?_, fun keeps => ?_⟩
  · rw [if_pos advances, Proposal.advanced, if_pos acts]
    exact ⟨rfl, rfl, rfl⟩
  · split
    · rename_i advances
      exact Proposal.advanced_of_not_acts fun acts => keeps ⟨advances, acts⟩
    · rfl

theorem State.readEntry_accept_spec (s : State) (b : Nat) (v : Version) (d : Data)
    (source : Source) (i : Fin 4) :
    (s.accept b v d source).readEntry i =
      let e := s.readEntry i
      if newer v (s.entryOf b).version = true ∧
          (e.state = .querySending ∨ e.state = .queryAwaiting) ∧ e.block = b then
        { e with reports := e.reports.set s.own (some ⟨v, true⟩) }
      else e := by
  rw [State.readEntry_accept]
  dsimp only
  rw [ite_and]
  rfl

end

/-- Settles O25: an acceptance takes the version, repairs the block, and gives the advance notice
where the version is newer. -/
theorem acceptanceStagesTheVersion : Obligations.AcceptanceStagesTheVersion := by
  intro b v d source t s other h
  obtain rfl := State.offer_accepts other h
  have store := s.accept_store b (received v) d source
  have entries : ∀ k, (s.accept b (received v) d source).entryOf k =
      (s.take b (received v) d source).entryOf k := State.entryOf_of store
  have staging : (s.accept b (received v) d source).store.staging =
      stage b (received v) d source s.store.staging := by rw [store, State.take_staging]
  refine ⟨?_, fun k hk => ?_, ?_, ?_, fun pre e post split block waits first => ?_,
    fun free => ?_, ?_, State.accept_list .., State.accept_events ..,
    fun i => State.proposal_accept_spec .., State.accept_fetch .., fun listed works nodup id member => ?_,
    fun i => State.readEntry_accept_spec ..,
    fun advances p member same waits => State.accept_pushes_version advances member same waits,
    fun idle => State.accept_pushes_of_no_waiting idle ..⟩
  · rw [entries, State.entryOf_take, if_pos rfl]
  · rw [entries, State.entryOf_take, if_neg hk.symm]
  · rw [store, State.take_clock]
  · rw [State.accept_media]
  · rw [staging, split, stage_eq_replace block waits first]
  · rw [staging, stage_eq_append _ _ _ _ _ free]
  · rw [State.accept_media]
  · exact State.accept_gone listed works nodup member

end Sys2Proof.Machine
end

section
/-! PROOF. The frame on the line: an attempt starts and ends, a mismatch stops the frame, a
completion is reported to its producer (O26 to O28). -/

namespace Sys2Proof.Machine

/-! ## The attempt (R83 to R86) -/

section
variable {s : State} {q : QueuedFrame} {withdrawn : Bool}

theorem exec_transmissionStart_of_live (live : s.live = true) :
    exec .transmissionStart s = .next s.endIgnored.startAttempt :=
  congrArg Host.Outcome.next (if_pos live)

theorem State.startAttempt_of_head {rest : List QueuedFrame} (quiet : s.sending = none)
    (head : s.line.queue = q :: rest) :
    s.startAttempt = s.markFrame q.id (.arbitrated false) := by
  simp only [State.startAttempt, quiet, head]

theorem State.startAttempt_of_none (h : s.sending ≠ none ∨ s.line.queue = []) :
    s.startAttempt = s := by
  unfold State.startAttempt
  split
  · rename_i quiet head
    rcases h with busy | empty
    · exact absurd quiet busy
    · simp [empty] at head
  · rfl

theorem exec_arbitrationLost_of_sending (live : s.live = true) (sending : s.sending = some q)
    (state : q.state = .arbitrated withdrawn) :
    exec .arbitrationLost s = .next (s.loseAttempt q withdrawn).settle := by
  show execArbitrationLost s = _
  simp only [execArbitrationLost, live, sending, state]

theorem exec_arbitrationWon_of_sending (live : s.live = true) (sending : s.sending = some q)
    (state : q.state = .arbitrated withdrawn) :
    exec .arbitrationWon s = .next (s.winAttempt q withdrawn).settle := by
  show execArbitrationWon s = _
  simp only [execArbitrationWon, live, sending, state]

theorem exec_readBackMismatch_of_sending (live : s.live = true) (sending : s.sending = some q) :
    exec .readBackMismatch s = .next ((s.pastArbitration q).stopFrame q).settle := by
  show execReadBackMismatch s = _
  simp only [execReadBackMismatch, live, sending]

theorem exec_transmissionCompletion_of_sending (live : s.live = true)
    (sending : s.sending = some q) :
    exec .transmissionCompletion s =
      .next (((s.pastArbitration q).leaveQueue q.id).completed q.id).settle := by
  show execTransmissionCompletion s = _
  simp only [execTransmissionCompletion, live, sending]

theorem State.loseAttempt_of_withdrawn (q : QueuedFrame) :
    s.loseAttempt q true = s.leaveQueue q.id := if_pos rfl

theorem State.loseAttempt_of_no_replacement (free : s.line.replacement = none) :
    s.loseAttempt q false = s.markFrame q.id .unsent := by
  simp only [State.loseAttempt, free]
  exact if_neg Bool.false_ne_true

/-- A heartbeat that loses its attempt takes the content that waited for it (R84). -/
theorem State.loseAttempt_of_replacement {f : Frame} (waits : s.line.replacement = some f) :
    s.loseAttempt q false = { s with line := { s.line with
      replacement := none
      queue := s.line.queue.map fun r =>
        if r.id = q.id then
          (if r.frame.isHeartbeat then { r with state := .unsent, frame := f }
          else { r with state := .unsent })
        else r } } := by
  have marked : s.loseAttempt q false =
      ((s.markFrame q.id .unsent).replaceFrame q.id f).takeReplacement := by
    simp only [State.loseAttempt, waits]
    exact if_neg Bool.false_ne_true
  have queue : ((s.markFrame q.id .unsent).replaceFrame q.id f).line.queue =
      s.line.queue.map fun r =>
        if r.id = q.id then
          (if r.frame.isHeartbeat then { r with state := .unsent, frame := f }
          else { r with state := .unsent })
        else r := by
    simp only [State.replaceFrame, State.markFrame, State.onLine_line, List.map_map]
    refine List.map_congr_left fun r _ => ?_
    by_cases same : r.id = q.id
    · simp [same]
    · simp [same]
  rw [marked, ← queue]
  rfl

theorem State.winAttempt_of_no_replacement (free : s.line.replacement = none) :
    s.winAttempt q withdrawn = { s with line := { s.line with
      replacement := none
      queue := s.line.queue.map fun r =>
        if r.id = q.id then { r with state := .transmitted withdrawn } else r } } := by
  have marked : s.winAttempt q withdrawn = s.markFrame q.id (.transmitted withdrawn) := by
    simp only [State.winAttempt, free]
  rw [marked, ← free]
  rfl

theorem State.winAttempt_of_replacement {f : Frame} (waits : s.line.replacement = some f) :
    s.winAttempt q withdrawn = State.placeHeartbeat { s with line := { s.line with
      replacement := none
      queue := s.line.queue.map fun r =>
        if r.id = q.id then { r with state := .transmitted withdrawn } else r } } f := by
  simp only [State.winAttempt, waits]
  rfl

end

/-- Settles O26, by the ways in which an attempt starts, is lost and is won. -/
theorem attemptStartsAndEnds : Obligations.AttemptStartsAndEnds := by
  refine ⟨fun s => ⟨fun live quiet q rest head => ?_, fun live idle => ?_, fun live => ?_⟩,
    fun q withdrawn s live sending state => ⟨?_, ?_, ?_, ?_⟩⟩
  · rw [exec_transmissionStart_of_live live,
      State.startAttempt_of_head (s := s.endIgnored) quiet head]
    rfl
  · rw [exec_transmissionStart_of_live live,
      State.startAttempt_of_none (s := s.endIgnored) idle]
    rfl
  · exact congrArg Host.Outcome.next (if_neg (by simp [live]))
  · rintro rfl
    rw [exec_arbitrationLost_of_sending live sending state, State.loseAttempt_of_withdrawn]
  · rintro rfl free
    rw [exec_arbitrationLost_of_sending live sending state,
      State.loseAttempt_of_no_replacement free]
    rfl
  · rintro f rfl waits
    rw [exec_arbitrationLost_of_sending live sending state,
      State.loseAttempt_of_replacement waits]
  · rintro u rfl
    refine ⟨fun free => ?_, fun f waits => ?_⟩
    · rw [exec_arbitrationWon_of_sending live sending state,
        State.winAttempt_of_no_replacement free]
    · rw [exec_arbitrationWon_of_sending live sending state,
        State.winAttempt_of_replacement waits]

/-! ## The mismatch (R83, R84, R87) -/

section
variable {s : State} {q : QueuedFrame} {withdrawn : Bool}

theorem State.pastArbitration_of_transmitted (state : q.state = .transmitted withdrawn) :
    s.pastArbitration q = s := by
  simp only [State.pastArbitration, state]

theorem State.pastArbitration_of_arbitrated (state : q.state = .arbitrated withdrawn) :
    s.pastArbitration q = s.winAttempt q withdrawn := by
  simp only [State.pastArbitration, state]

theorem State.stopFrame_of_withdrawn (state : q.state = .transmitted true) :
    s.stopFrame q = s.leaveQueue q.id := by
  simp only [State.stopFrame, state]

theorem State.stopFrame_of_kept (state : q.state = .transmitted false) :
    s.stopFrame q =
      if q.frame.isHeartbeat = true then (s.markFrame q.id .unsent).mergeHeartbeat q.id
      else s.markFrame q.id .unsent := by
  simp only [State.stopFrame, state]

theorem State.mergeHeartbeat_of_none {id : Nat} (alone : s.otherHeartbeat id = none) :
    s.mergeHeartbeat id = s := by
  simp only [State.mergeHeartbeat, alone]

theorem State.mergeHeartbeat_of_some {id k : Nat} {f : Frame}
    (found : s.otherHeartbeat id = some (k, f)) :
    s.mergeHeartbeat id = (s.replaceFrame id f).withdraw k := by
  simp only [State.mergeHeartbeat, found]

end

/-- Settles O27, by the frame that stops: withdrawn, no heartbeat, the only one, one of two. -/
theorem mismatchMakesTheFrameUnsent : Obligations.MismatchMakesTheFrameUnsent := by
  intro q withdrawn s live sending state
  dsimp only
  rw [exec_readBackMismatch_of_sending live sending, State.pastArbitration_of_transmitted state]
  refine ⟨?_, ?_, ?_, ?_⟩
  · rintro rfl
    rw [State.stopFrame_of_withdrawn state]
  · rintro rfl other
    rw [State.stopFrame_of_kept state, if_neg (by simp [other])]
    rfl
  · rintro rfl heartbeat alone
    rw [State.stopFrame_of_kept state, if_pos heartbeat,
      State.mergeHeartbeat_of_none (s := s.markFrame q.id .unsent) alone]
    rfl
  · rintro k f rfl heartbeat found
    rw [State.stopFrame_of_kept state, if_pos heartbeat,
      State.mergeHeartbeat_of_some (s := s.markFrame q.id .unsent) found]
    rfl

/-! ## The completion (R87, R127, R142, R158, R167, R170) -/

/-- What the completion of a frame makes of a proposal, at a station with the interval given. -/
def Proposal.completed (interval id : Nat) (p : Proposal) : Proposal :=
  if p.state = .sending ∧ id ∈ p.frames then
    { p with state := .awaiting, window := some (2 * interval), frames := [] }
  else p

/-- What the completion of a frame makes of a read entry. -/
def ReadEntry.completed (interval id : Nat) (e : ReadEntry) : ReadEntry :=
  let kept := e.frames.filter (· ≠ id)
  if id ∈ e.frames then
    if e.state = .querySending then
      { e with state := .queryAwaiting, frames := kept, queryWindow := some (2 * interval) }
    else if e.state = .fetchSending then
      { e with state := .fetchAwaiting, frames := kept, fetchWindow := some (2 * interval) }
    else { e with frames := kept }
  else e

section
variable (s : State) (id : Nat)

theorem State.completeAtProposal_eq (i : Fin 8) :
    s.completeAtProposal id i = s.setProposal i ((s.proposal i).completed s.interval id) ∨
      s.completeAtProposal id i = s ∧ (s.proposal i).completed s.interval id = s.proposal i := by
  unfold State.completeAtProposal Proposal.completed
  simp only [List.contains_iff_mem]
  split
  · exact .inl rfl
  · exact .inr ⟨rfl, rfl⟩

theorem State.completeAtRead_eq (i : Fin 4) :
    s.completeAtRead id i = s.setRead i ((s.readEntry i).completed s.interval id) ∨
      s.completeAtRead id i = s ∧ (s.readEntry i).completed s.interval id = s.readEntry i := by
  unfold State.completeAtRead ReadEntry.completed
  simp only [List.contains_iff_mem]
  split
  · left
    cases (s.readEntry i).state <;> rfl
  · exact .inr ⟨rfl, rfl⟩

theorem State.proposal_completeAtProposal (i j : Fin 8) :
    (s.completeAtProposal id i).proposal j =
      if i = j then (s.proposal i).completed s.interval id else s.proposal j := by
  rcases s.completeAtProposal_eq id i with acts | ⟨idle, same⟩
  · rw [acts, State.proposal_setProposal]
  · rw [idle, same]
    split
    · rename_i here
      rw [here]
    · rfl

theorem State.readEntry_completeAtRead (i j : Fin 4) :
    (s.completeAtRead id i).readEntry j =
      if i = j then (s.readEntry i).completed s.interval id else s.readEntry j := by
  rcases s.completeAtRead_eq id i with acts | ⟨idle, same⟩
  · rw [acts, State.readEntry_setRead]
  · rw [idle, same]
    split
    · rename_i here
      rw [here]
    · rfl

@[simp] theorem State.completeAtProposal_keeps (i : Fin 8) :
    (s.completeAtProposal id i).control = s.control ∧
    (s.completeAtProposal id i).member = s.member ∧
    (s.completeAtProposal id i).store = s.store ∧ (s.completeAtProposal id i).media = s.media ∧
    (s.completeAtProposal id i).line = s.line ∧ (s.completeAtProposal id i).reads = s.reads ∧
    (s.completeAtProposal id i).repair = s.repair ∧
    (s.completeAtProposal id i).client = s.client := by
  rcases s.completeAtProposal_eq id i with acts | ⟨idle, -⟩
  · simp [acts]
  · simp [idle]

@[simp] theorem State.completeAtRead_keeps (i : Fin 4) :
    (s.completeAtRead id i).control = s.control ∧ (s.completeAtRead id i).member = s.member ∧
    (s.completeAtRead id i).store = s.store ∧ (s.completeAtRead id i).media = s.media ∧
    (s.completeAtRead id i).line = s.line ∧ (s.completeAtRead id i).writes = s.writes ∧
    (s.completeAtRead id i).repair = s.repair ∧ (s.completeAtRead id i).client = s.client := by
  rcases s.completeAtRead_eq id i with acts | ⟨idle, -⟩
  · simp [acts]
  · simp [idle]

/-- The completion is reported to the proposals. -/
def State.completeProposals : State :=
  (List.finRange 8).foldl (fun s i => s.completeAtProposal id i) s

/-- The completion is reported to the read entries. -/
def State.completeReads : State :=
  (List.finRange 4).foldl (fun s i => s.completeAtRead id i) s

theorem State.completed_eq :
    s.completed id =
      (((s.completeProposals id).completeReads id).completeAtFetch id).completeAtCursor id := rfl

@[simp] theorem State.completeProposals_keeps :
    (s.completeProposals id).control = s.control ∧ (s.completeProposals id).member = s.member ∧
    (s.completeProposals id).store = s.store ∧ (s.completeProposals id).media = s.media ∧
    (s.completeProposals id).line = s.line ∧ (s.completeProposals id).reads = s.reads ∧
    (s.completeProposals id).repair = s.repair ∧
    (s.completeProposals id).client = s.client := by
  have kept := foldl_keeps (fun s : State =>
      (s.control, s.member, s.store, s.media, s.line, s.reads, s.repair, s.client))
    (fun s i => s.completeAtProposal id i) (fun s i => by simp) (List.finRange 8) s
  simp only [Prod.mk.injEq] at kept
  exact kept

@[simp] theorem State.completeReads_keeps :
    (s.completeReads id).control = s.control ∧ (s.completeReads id).member = s.member ∧
    (s.completeReads id).store = s.store ∧ (s.completeReads id).media = s.media ∧
    (s.completeReads id).line = s.line ∧ (s.completeReads id).writes = s.writes ∧
    (s.completeReads id).repair = s.repair ∧ (s.completeReads id).client = s.client := by
  have kept := foldl_keeps (fun s : State =>
      (s.control, s.member, s.store, s.media, s.line, s.writes, s.repair, s.client))
    (fun s i => s.completeAtRead id i) (fun s i => by simp) (List.finRange 4) s
  simp only [Prod.mk.injEq] at kept
  exact kept

theorem State.proposal_completeProposals (i : Fin 8) :
    (s.completeProposals id).proposal i = (s.proposal i).completed s.interval id :=
  foldl_finRange_get (fun s i => State.completeAtProposal s id i) State.proposal State.interval
    (fun interval _ p => p.completed interval id)
    (fun s i => (s.proposal_completeAtProposal id i i).trans (if_pos rfl))
    (fun s i j apart => (s.proposal_completeAtProposal id i j).trans (if_neg apart))
    (fun s i => State.interval_of (by simp)) s i

theorem State.readEntry_completeReads (i : Fin 4) :
    (s.completeReads id).readEntry i = (s.readEntry i).completed s.interval id :=
  foldl_finRange_get (fun s i => State.completeAtRead s id i) State.readEntry State.interval
    (fun interval _ e => e.completed interval id)
    (fun s i => (s.readEntry_completeAtRead id i i).trans (if_pos rfl))
    (fun s i j apart => (s.readEntry_completeAtRead id i j).trans (if_neg apart))
    (fun s i => State.interval_of (by simp)) s i

/-- What the completion of a frame makes of the fetch slot. -/
def FetchSlot.completed (interval id : Nat) (f : FetchSlot) : FetchSlot :=
  let kept := f.frames.filter (· ≠ id)
  if id ∈ f.frames then
    if f.state = .fetchSending then
      { f with state := .fetchAwaiting, frames := kept, window := some (2 * interval) }
    else { f with frames := kept }
  else f

/-- What the completion of a frame makes of the cursor. -/
def Cursor.completed (interval id : Nat) (c : Cursor) : Cursor :=
  let c := { c with earlier := c.earlier.filter (· ≠ id) }
  let kept := c.frames.filter (· ≠ id)
  if id ∈ c.frames then
    if c.state = .digestSending then
      { c with state := .awaitingRange, frames := kept, rangeWindow := some 256 }
    else if c.state = .pushing then
      { c with frames := kept, pushDeadline := some (2 * interval) }
    else { c with frames := kept }
  else c

theorem State.completeAtFetch_eq :
    s.completeAtFetch id = s.onFetch fun f => f.completed s.interval id := by
  unfold State.completeAtFetch FetchSlot.completed
  simp only [List.contains_iff_mem]
  by_cases mine : id ∈ s.repair.fetch.frames
  · by_cases sends : s.repair.fetch.state = .fetchSending
    · rw [if_pos mine, if_pos sends]
      simp only [State.onFetch, State.onRepair, if_pos mine, if_pos sends]
    · rw [if_pos mine, if_neg sends]
      simp only [State.onFetch, State.onRepair, if_pos mine, if_neg sends]
  · rw [if_neg mine]
    simp only [State.onFetch, State.onRepair, if_neg mine]

theorem State.completeAtCursor_eq :
    s.completeAtCursor id = s.onCursor fun c => c.completed s.interval id := by
  have swap : ∀ c : Cursor, c = s.repair.cursor.completed s.interval id →
      (s.onCursor fun _ => c) = s.onCursor fun c => c.completed s.interval id := by
    rintro c rfl
    rfl
  unfold State.completeAtCursor
  simp only [List.contains_iff_mem]
  split
  · rename_i mine
    cases h : s.repair.cursor.state
    all_goals exact swap _ (by simp only [Cursor.completed, if_pos mine, h]; rfl)
  · rename_i other
    exact swap _ (by simp only [Cursor.completed, if_neg other])

theorem State.completed_keeps :
    (s.completed id).line = s.line ∧ (s.completed id).store = s.store ∧
    (s.completed id).media = s.media ∧ (s.completed id).client = s.client ∧
    (s.completed id).member = s.member := by
  simp [State.completed_eq, State.completeAtFetch_eq, State.completeAtCursor_eq]

theorem State.proposal_completed (i : Fin 8) :
    (s.completed id).proposal i = (s.proposal i).completed s.interval id := by
  rw [← State.proposal_completeProposals]
  exact State.proposal_of
    (by simp [State.completed_eq, State.completeAtFetch_eq, State.completeAtCursor_eq]) i

theorem State.readEntry_completed (i : Fin 4) :
    (s.completed id).readEntry i = (s.readEntry i).completed s.interval id := by
  have entry : (s.completeProposals id).readEntry i = s.readEntry i :=
    State.readEntry_of (by simp) i
  have interval : (s.completeProposals id).interval = s.interval :=
    State.interval_of (by simp)
  rw [← entry, ← interval, ← State.readEntry_completeReads]
  exact State.readEntry_of
    (by simp [State.completed_eq, State.completeAtFetch_eq, State.completeAtCursor_eq]) i

theorem State.completed_repair :
    (s.completed id).repair.fetch = s.repair.fetch.completed s.interval id ∧
      (s.completed id).repair.cursor = s.repair.cursor.completed s.interval id := by
  have reads : ((s.completeProposals id).completeReads id).interval = s.interval :=
    State.interval_of (by simp)
  have fetch : (((s.completeProposals id).completeReads id).completeAtFetch id).interval =
      s.interval := by
    rw [← reads]
    exact State.interval_of (by simp [State.completeAtFetch_eq])
  rw [State.completed_eq, State.completeAtCursor_eq, fetch, State.completeAtFetch_eq, reads]
  simp

end

/-! ## The station past the arbitration of its frame (log 24) -/

section
variable (s : State) (q : QueuedFrame)

@[simp] theorem State.winAttempt_keeps (withdrawn : Bool) :
    (s.winAttempt q withdrawn).control = s.control ∧
    (s.winAttempt q withdrawn).member = s.member ∧
    (s.winAttempt q withdrawn).store = s.store ∧ (s.winAttempt q withdrawn).media = s.media ∧
    (s.winAttempt q withdrawn).writes = s.writes ∧ (s.winAttempt q withdrawn).reads = s.reads ∧
    (s.winAttempt q withdrawn).repair.fetch = s.repair.fetch ∧
    (s.winAttempt q withdrawn).client = s.client := by
  unfold State.winAttempt
  dsimp only
  split <;> simp [State.markFrame, State.takeReplacement]

@[simp] theorem State.pastArbitration_keeps :
    (s.pastArbitration q).control = s.control ∧ (s.pastArbitration q).member = s.member ∧
    (s.pastArbitration q).store = s.store ∧ (s.pastArbitration q).media = s.media ∧
    (s.pastArbitration q).writes = s.writes ∧ (s.pastArbitration q).reads = s.reads ∧
    (s.pastArbitration q).repair.fetch = s.repair.fetch ∧
    (s.pastArbitration q).client = s.client := by
  unfold State.pastArbitration
  split <;> simp

/-- The state in which the completion of the frame is reported is the one past its arbitration. -/
theorem State.pastArbitration_eq {w : State} {withdrawn : Bool}
    (state : q.state = .transmitted withdrawn ∨ q.state = .arbitrated withdrawn)
    (transmitted : q.state = .transmitted withdrawn → w = s)
    (arbitrated : q.state = .arbitrated withdrawn →
      (s.line.replacement = none → w = { s with line := { s.line with
        replacement := none
        queue := s.line.queue.map fun r =>
          if r.id = q.id then { r with state := .transmitted withdrawn } else r } }) ∧
      ∀ f, s.line.replacement = some f → w = State.placeHeartbeat { s with line := { s.line with
        replacement := none
        queue := s.line.queue.map fun r =>
          if r.id = q.id then { r with state := .transmitted withdrawn } else r } } f) :
    s.pastArbitration q = w := by
  rcases state with state | state
  · rw [transmitted state, State.pastArbitration_of_transmitted state]
  · obtain ⟨free, waits⟩ := arbitrated state
    rw [State.pastArbitration_of_arbitrated state]
    cases h : s.line.replacement with
    | none => rw [free h, State.winAttempt_of_no_replacement h]
    | some f => rw [waits f h, State.winAttempt_of_replacement h]

end

/-- Settles O28: the frame leaves, and each producer takes the completion as its own. -/
theorem completionStartsTheWindow : Obligations.CompletionStartsTheWindow := by
  intro q withdrawn s live sending state won w transmitted arbitrated v
  have past : s.pastArbitration q = w :=
    State.pastArbitration_eq s q state transmitted arbitrated
  obtain ⟨line, store, media, client, member⟩ := v.completed_keeps q.id
  obtain ⟨fetch, cursor⟩ := v.completed_repair q.id
  have interval : v.interval = s.interval := State.interval_of (by simp [v, ← past])
  rw [interval] at fetch cursor
  refine ⟨v.completed q.id, ?_, line, ?_, ?_, ?_, ?_, fun i => ?_, fun i => ?_, ?_, cursor⟩
  · rw [exec_transmissionCompletion_of_sending live sending, past]
  · rw [store]
    simp [v, ← past]
  · rw [media]
    simp [v, ← past]
  · rw [client]
    simp [v, ← past]
  · rw [member]
    simp [v, ← past]
  · have entry : v.proposal i = s.proposal i := State.proposal_of (by simp [v, ← past]) i
    rw [State.proposal_completed, interval, entry]
    rfl
  · have entry : v.readEntry i = s.readEntry i := State.readEntry_of (by simp [v, ← past]) i
    rw [State.readEntry_completed, interval, entry]
    rfl
  · have slot : v.repair.fetch = s.repair.fetch := by simp [v, ← past]
    rw [fetch, slot]
    rfl

end Sys2Proof.Machine
end

section
/-! PROOF. The end of a reception, the frames that are not delivered, the places of the out-queue
and the heartbeat (O29 to O32). -/

namespace Sys2Proof.Machine

/-! ## The end of a reception (R72, R88, R89) -/

section
variable {s : State}

theorem State.reception_of_hears (act : State → State) (h : s.Hears) : s.reception act = act s := by
  obtain ⟨live, hears⟩ := h
  rw [State.reception, if_pos live, if_neg (by simp [hears])]

theorem State.reception_of_ignoring (act : State → State) (live : s.live = true)
    (ignoring : s.line.ignoring = true) : s.reception act = s.endIgnored := by
  rw [State.reception, if_pos live, if_pos ignoring]

theorem State.reception_of_not_live (act : State → State) (h : s.live = false) :
    s.reception act = s := if_neg (by simp [h])

/-- A command at which a reception ends does so by the rule of all receptions (R89). -/
theorem exec_of_endsReception {c : Instr} (ends : Instr.endsReception s.own c = true) :
    ∃ act : State → State, exec c s = .next (s.reception act) := by
  cases c with
  | receptionError bits =>
    exact ⟨_, congrArg Host.Outcome.next (if_pos (of_decide_eq_true ends))⟩
  | frameDiscarded f =>
    exact ⟨_, congrArg Host.Outcome.next (if_pos (of_decide_eq_true ends))⟩
  | addressConflict f =>
    exact ⟨_, congrArg Host.Outcome.next (if_pos (of_decide_eq_true ends))⟩
  | updateReceived n b v a w r d =>
    by_cases judged : attemptOk a = true ∨ n = s.own
    · exact ⟨_, congrArg Host.Outcome.next (if_pos judged)⟩
    · exact ⟨_, congrArg Host.Outcome.next (if_neg judged)⟩
  | queryReceived n b a w =>
    by_cases judged : attemptOk a = true ∨ n = s.own
    · exact ⟨_, congrArg Host.Outcome.next (if_pos judged)⟩
    · exact ⟨_, congrArg Host.Outcome.next (if_neg judged)⟩
  | heartbeatReceived | ackReceived | reportReceived | fetchReceived | repairReceived
  | notHeldReceived | digestReceived | rangeDoneReceived | pushReceived | busyReceived
  | notServingReceived => exact ⟨_, rfl⟩
  | _ => exact absurd ends Bool.false_ne_true

theorem State.discard_eq (s : State) :
    s.discard = { s with line := { s.line with
      discards := if s.line.discards = 65535#16 then 65535#16
        else s.line.discards + 1#16 } } := by
  have count : (if s.line.discards = 65535#16 then s.line.discards
      else s.line.discards + 1#16) =
      if s.line.discards = 65535#16 then 65535#16 else s.line.discards + 1#16 := by
    split
    · assumption
    · rfl
  rw [← count]
  rfl

end

/-- Settles O29, by the three states a reception ends in: heard, ignored, off the line. -/
theorem discardCountSaturates : Obligations.DiscardCountSaturates := by
  intro s
  rw [← State.discard_eq s]
  refine ⟨fun hears => ⟨fun bits broken => ?_, fun f discarded => ?_, fun n b v a w r d other bad => ?_,
    fun n b a w other bad => ?_⟩, fun live ignoring c ends => ?_, fun live c ends => ?_⟩
  · show execReceptionError bits s = _
    rw [execReceptionError, if_pos broken, State.reception_of_hears _ hears]
  · show execFrameDiscarded f s = _
    rw [execFrameDiscarded, if_pos discarded, State.reception_of_hears _ hears]
  · show execUpdateReceived n b v a w r d s = _
    rw [execUpdateReceived, if_neg (by simp [other, bad]), State.reception_of_hears _ hears]
  · show execQueryReceived n b a w s = _
    rw [execQueryReceived, if_neg (by simp [other, bad]), State.reception_of_hears _ hears]
  · obtain ⟨act, run⟩ := exec_of_endsReception ends
    rw [run, State.reception_of_ignoring act live ignoring]
    rfl
  · obtain ⟨act, run⟩ := exec_of_endsReception ends
    rw [run, State.reception_of_not_live act live]

/-! ## The own number (R92, R117) -/

section
variable {s : State}

theorem State.receive_own (hears : s.Hears) (target : Option StationNo)
    (deliver : State → State) : s.receive s.own target deliver = s.addressConflict :=
  (State.reception_of_hears _ hears).trans (if_pos rfl)

theorem State.phase_ne_faulted_of_live (live : s.live = true) : s.member.phase ≠ .faulted := by
  intro faulted
  simp [State.live, faulted, Phase.running] at live

end

/-- Settles O30: each of these frames ends in the address conflict, and FAULTED is entered. -/
theorem ownNumberEntersFaulted : Obligations.OwnNumberEntersFaulted := by
  intro c s hears own
  have conflict : exec c s = .next s.addressConflict := by
    rcases own with ⟨f, rfl, foreign⟩ | ⟨p, k, g, y, x, z, rfl⟩ | ⟨b, v, a, w, r, d, rfl⟩ |
      ⟨n, b, v, o, rfl⟩ | ⟨b, a, w, rfl⟩ | ⟨n, b, v, h, rfl⟩ | ⟨n, b, rfl⟩ | ⟨n, b, v, d, rfl⟩ |
      ⟨n, b, rfl⟩ | ⟨n, r, vs, rfl⟩ | ⟨n, r, k, w, rfl⟩ | ⟨n, b, v, d, rfl⟩ | ⟨n, r, rfl⟩ |
      ⟨n, r, rfl⟩
    case inl =>
      show execAddressConflict f s = _
      rw [execAddressConflict, if_pos foreign, State.reception_of_hears _ hears]
    case inr.inl =>
      exact congrArg Host.Outcome.next
        ((State.reception_of_hears _ hears).trans (if_pos rfl))
    case inr.inr.inl =>
      exact congrArg Host.Outcome.next
        ((if_pos (.inr rfl)).trans (State.receive_own hears _ _))
    case inr.inr.inr.inr.inl =>
      exact congrArg Host.Outcome.next
        ((if_pos (.inr rfl)).trans (State.receive_own hears _ _))
    all_goals exact congrArg Host.Outcome.next (State.receive_own hears _ _)
  have phase : (s.raise .addressConflict (.station s.own) .none).member.phase ≠ .faulted :=
    State.phase_ne_faulted_of_live hears.1
  rw [State.addressConflict, State.enterFaulted_of_ne .address phase] at conflict
  exact ⟨_, conflict, rfl, rfl, rfl, rfl, rfl, rfl, rfl, rfl, rfl, rfl, rfl⟩

/-! ## The places of the out-queue (R80 to R83) -/

section
variable {s : State} {id : Nat}

theorem State.join_queue (s : State) (id : Nat) (f : Frame) :
    (s.join id f).line.queue =
      s.line.queue.takeWhile (fun q => decide (q.frame.body.cls ≤ f.body.cls)) ++
        ⟨id, s.atJoining f, .unsent⟩ ::
        s.line.queue.dropWhile (fun q => decide (q.frame.body.cls ≤ f.body.cls)) := by
  have joined : (s.join id f).line.queue = enqueue ⟨id, s.atJoining f, .unsent⟩ s.line.queue := rfl
  rw [joined, enqueue_eq, State.cls_atJoining]

theorem State.place_of_room (f : Frame) (room : s.line.queue.length < 16) :
    s.place id f = s.join id f := if_pos room

theorem State.place_of_dropped (f : Frame) (full : 16 ≤ s.line.queue.length)
    (answer : f.body.cls = 0) : s.place id f = s :=
  (if_neg (Nat.not_lt.mpr full)).trans (if_pos answer)

theorem State.place_of_full (f : Frame) (full : 16 ≤ s.line.queue.length)
    (waits : f.body.cls ≠ 0) :
    s.place id f = s.onLine fun l => { l with waiting := l.waiting ++ [⟨id, f⟩] } :=
  (if_neg (Nat.not_lt.mpr full)).trans (if_neg waits)

/-- The frame chosen for a freed place precedes all of its class, and no class is lower (R82). -/
theorem bestWaiting_spec {w : WaitingFrame} {l : List WaitingFrame} (h : bestWaiting l = some w) :
    ∃ pre post, l = pre ++ w :: post ∧
      (∀ x, x ∈ pre → w.frame.body.cls < x.frame.body.cls) ∧
      (∀ x, x ∈ post → w.frame.body.cls ≤ x.frame.body.cls) := by
  induction l generalizing w with
  | nil => simp [bestWaiting] at h
  | cons y rest ih =>
    rw [bestWaiting] at h
    split at h
    · rename_i empty
      have empty : rest = [] := bestWaiting_eq_none empty
      subst empty
      obtain rfl := Option.some.inj h
      exact ⟨[], [], rfl, by simp, by simp⟩
    · rename_i b best
      obtain ⟨pre, post, split, before, after⟩ := ih best
      split at h
      · rename_i lower
        obtain rfl := Option.some.inj h
        refine ⟨y :: pre, post, by rw [split, List.cons_append], ?_, after⟩
        intro x hx
        rcases List.mem_cons.mp hx with rfl | hx
        · exact lower
        · exact before x hx
      · rename_i notLower
        obtain rfl := Option.some.inj h
        refine ⟨[], rest, rfl, by simp, fun x hx => ?_⟩
        have least : b.frame.body.cls ≤ x.frame.body.cls := by
          rw [split, List.mem_append, List.mem_cons] at hx
          rcases hx with hx | rfl | hx
          · exact (before x hx).le
          · exact le_rfl
          · exact after x hx
        exact (Nat.not_lt.mp notLower).trans least

theorem State.handOut_of_room {w : WaitingFrame} (room : s.line.queue.length < 16)
    (best : bestWaiting s.line.waiting = some w) :
    s.handOut = (s.onLine fun l =>
      { l with waiting := l.waiting.filter (·.id ≠ w.id) }).join w.id w.frame := by
  refine (if_pos room).trans ?_
  simp only [best]

theorem State.handOut_of_idle (h : 16 ≤ s.line.queue.length ∨ s.line.waiting = []) :
    s.handOut = s := by
  unfold State.handOut
  split
  · rename_i room
    have none : s.line.waiting = [] := h.resolve_left (Nat.not_le.mpr room)
    rw [none]
    rfl
  · rfl

theorem State.withdraw_of_waiting (h : ∃ w, w ∈ s.line.waiting ∧ w.id = id) :
    s.withdraw id = s.onLine fun l => { l with waiting := l.waiting.filter (·.id ≠ id) } :=
  if_pos (by simpa using h)

theorem State.withdraw_of_queued {q : QueuedFrame} (h : ∀ w, w ∈ s.line.waiting → w.id ≠ id)
    (found : s.line.queue.find? (·.id = id) = some q) :
    s.withdraw id =
      if q.state = .unsent then s.leaveQueue id
      else s.onLine fun l =>
        { l with queue := l.queue.map fun q => if q.id = id then q.withdrawn else q } := by
  refine (if_neg (by simpa using h)).trans ?_
  simp only [found]

end

/-- Settles O31, by the three operations: a frame is placed, a freed place is handed out, a frame is
withdrawn. -/
theorem placesGoByClass : Obligations.PlacesGoByClass := by
  refine ⟨fun id f s => ⟨fun room => ?_, fun full answer => ?_, fun full waits => ?_⟩,
    fun s => ⟨State.handOut_of_idle, fun room waits => ?_⟩,
    fun id s => ⟨State.withdraw_of_waiting, fun queued q found =>
      ⟨fun unsent => ?_, fun onLine => ?_⟩⟩⟩
  · rw [State.place_of_room f room]
    exact ⟨s.join_queue id f, rfl⟩
  · exact State.place_of_dropped f full answer
  · exact State.place_of_full f full waits
  · cases best : bestWaiting s.line.waiting with
    | none => exact absurd (bestWaiting_eq_none best) waits
    | some w =>
      obtain ⟨pre, post, split, before, after⟩ := bestWaiting_spec best
      exact ⟨pre, w, post, split, before, after, State.handOut_of_room room best⟩
  · rw [State.withdraw_of_queued queued found, if_pos unsent]
    rfl
  · rw [State.withdraw_of_queued queued found, if_neg onLine]
    rfl

/-! ## The heartbeat (R84, R100, R101) -/

section
variable {s : State} {f : Frame}

theorem inArbitration_iff (x : FrameState) :
    x.inArbitration = true ↔ ∃ w, x = .arbitrated w := by
  cases x <;> simp [FrameState.inArbitration]

/-- A heartbeat is queued unsent. -/
def State.BeatUnsent (s : State) : Prop :=
  ∃ q, q ∈ s.line.queue ∧ q.frame.isHeartbeat = true ∧ q.state = .unsent

/-- A heartbeat is in its arbitration field. -/
def State.BeatContends (s : State) : Prop :=
  ∃ q w, q ∈ s.line.queue ∧ q.frame.isHeartbeat = true ∧ q.state = .arbitrated w

/-- A heartbeat waits for a place. -/
def State.BeatWaits (s : State) : Prop :=
  ∃ w, w ∈ s.line.waiting ∧ w.frame.isHeartbeat = true

theorem State.placeHeartbeat_cases (s : State) (f : Frame) :
    (s.BeatUnsent → s.placeHeartbeat f =
      s.onLine fun l => { l with queue := replaceHeartbeat f l.queue }) ∧
    (¬ s.BeatUnsent → s.BeatContends → s.placeHeartbeat f =
      s.onLine fun l => { l with replacement := some f }) ∧
    (¬ s.BeatUnsent → ¬ s.BeatContends → s.BeatWaits → s.placeHeartbeat f =
      s.onLine fun l => { l with waiting := l.waiting.map fun w =>
        if w.frame.isHeartbeat then ⟨w.id, f⟩ else w }) ∧
    (¬ s.BeatUnsent → ¬ s.BeatContends → ¬ s.BeatWaits → s.placeHeartbeat f =
      s.bumpId.place s.line.nextId f) := by
  have unsent : (s.line.queue.any fun q => q.frame.isHeartbeat && decide (q.state = .unsent)) = true
      ↔ s.BeatUnsent := by
    simp [State.BeatUnsent]
  have contends : (s.line.queue.any fun q => q.frame.isHeartbeat && q.state.inArbitration) = true
      ↔ s.BeatContends := by
    simp [State.BeatContends, inArbitration_iff]
  have waits : (s.line.waiting.any fun w => w.frame.isHeartbeat) = true ↔ s.BeatWaits := by
    simp [State.BeatWaits]
  rw [← unsent, ← contends, ← waits]
  refine ⟨fun h => if_pos h, fun h₁ h₂ => ?_, fun h₁ h₂ h₃ => ?_, fun h₁ h₂ h₃ => ?_⟩
  · exact (if_neg h₁).trans (if_pos h₂)
  · exact (if_neg h₁).trans ((if_neg h₂).trans (if_pos h₃))
  · exact (if_neg h₁).trans ((if_neg h₂).trans (if_neg h₃))

theorem State.beat_of_run {p : RunPhase} (run : s.member.phase.run = some p) :
    s.beat = (s.onMember fun m => { m with heartbeatDue := false }).placeHeartbeat
      (s.build none (s.heartbeat p)) := by
  simp only [State.beat, run]

end

/-- Settles O32, by the four places that a heartbeat takes. -/
theorem heartbeatCarriesTheMoment : Obligations.HeartbeatCarriesTheMoment := by
  intro p s live due run f u unsent contends waits
  have expires : exec .heartbeatTimerExpiry s = .next (u.placeHeartbeat f).settle := by
    refine congrArg Host.Outcome.next ?_
    rw [State.expire_of_due _ live due, State.beat_of_run run]
    rfl
  obtain ⟨replaces, contending, waiting, placed⟩ := u.placeHeartbeat_cases f
  rw [expires]
  refine ⟨fun h => ?_, fun h₁ h₂ => ?_, fun h₁ h₂ h₃ => ?_, fun h₁ h₂ h₃ => ?_⟩
  · rw [replaces h]
    rfl
  · rw [contending h₁ h₂]
    rfl
  · rw [waiting h₁ h₂ h₃]
    rfl
  · rw [placed h₁ h₂ h₃]
    rfl

end Sys2Proof.Machine
end

section
/-! PROOF. What a HEARTBEAT shows of its sender, what any other frame does, and the frames of a
write: UPDATE, PUSH and ACK, and the QUERY of a read (O34 to O39). -/

namespace Sys2Proof.Machine

/-! ## HEARTBEAT (R104) -/

section
variable {s : State} {n : StationNo} {p : RunPhase} {clock : BitVec 32} {g geometry : Byte}

theorem exec_heartbeatReceived_of_hears (hears : s.Hears) (other : n ≠ s.own)
    (spares staging : Byte) :
    exec (.heartbeatReceived n p clock g geometry spares staging) s =
      .next (s.judgeHeartbeat n p clock g geometry).settle :=
  congrArg Host.Outcome.next ((State.reception_of_hears _ hears).trans (if_neg other))

theorem State.judgeHeartbeat_of_matches (h : geometry = 0x41#8 ∧ g.toNat = s.groupSize) :
    s.judgeHeartbeat n p clock g geometry = s.heartbeatMatches n p clock := by
  obtain ⟨rfl, size⟩ := h
  have reason : s.heartbeatReason g 0x41#8 = none :=
    (if_neg (not_not.mpr rfl)).trans (if_neg (not_not.mpr size))
  simp only [State.judgeHeartbeat, reason]

theorem State.judgeHeartbeat_of_conflict (h : ¬ (geometry = 0x41#8 ∧ g.toNat = s.groupSize)) :
    s.judgeHeartbeat n p clock g geometry =
      s.heartbeatConflicts n (if geometry = 0x41#8 then .group else .geometry) := by
  have reason : s.heartbeatReason g geometry =
      some (if geometry = 0x41#8 then .group else .geometry) := by
    by_cases same : geometry = 0x41#8
    · rw [if_pos same]
      exact (if_neg (not_not.mpr same)).trans (if_pos fun size => h ⟨same, size⟩)
    · rw [if_neg same]
      exact if_pos same
  simp only [State.judgeHeartbeat, reason]

end

/-- Settles O34, by what the HEARTBEAT says and what the entry showed before. -/
theorem heartbeatShowsThePeer : Obligations.HeartbeatShowsThePeer := by
  intro n p clock g geometry spares staging s hears other e c matches_ shown reason refused told
  have run : exec c s = .next (s.judgeHeartbeat n p clock g geometry).settle :=
    exec_heartbeatReceived_of_hears hears other spares staging
  rw [run]
  have known : matches_ → s.judgeHeartbeat n p clock g geometry = s.heartbeatMatches n p clock :=
    State.judgeHeartbeat_of_matches
  have strange : ¬ matches_ → s.judgeHeartbeat n p clock g geometry =
      s.heartbeatConflicts n reason := State.judgeHeartbeat_of_conflict
  refine ⟨fun m present same => ?_, fun m present other => ?_, fun m absent => ?_,
    fun m unheard => ?_, fun m present => ?_, fun m conflict same => ?_,
    fun m conflict other => ?_⟩
  · rw [known m]
    simp only [State.heartbeatMatches, e] at present same ⊢
    rw [present]
    simp only [same, if_true]
    rfl
  · rw [known m]
    simp only [State.heartbeatMatches, e] at present other ⊢
    rw [present]
    simp only [other, if_false]
    rfl
  · rw [known m]
    simp only [State.heartbeatMatches, e] at absent ⊢
    cases shows : (s.peer n).state with
    | present => exact absurd shows absent
    | unheard | silent | conflict => rfl
  · rw [strange m]
    simp only [State.heartbeatConflicts, e] at unheard ⊢
    rcases unheard with shows | shows <;> rw [shows] <;> rfl
  · rw [strange m]
    simp only [State.heartbeatConflicts, e] at present ⊢
    rw [present]
    rfl
  · rw [strange m]
    simp only [State.heartbeatConflicts, e] at conflict same ⊢
    rw [conflict]
    simp only [same, if_true]
    rfl
  · rw [strange m]
    simp only [State.heartbeatConflicts, e] at conflict other ⊢
    rw [conflict]
    simp only [other, if_false]
    rfl

/-! ## Any other frame (R93, R94, R103) -/

section
variable {s : State} {n : StationNo}

/-- A frame that is not for this station, or from a peer in CONFLICT, only has its sender heard. -/
theorem State.receive_hears (hears : s.Hears) (other : n ≠ s.own) (target : Option StationNo)
    (undelivered : (∃ m, target = some m ∧ m ≠ s.own) ∨ (s.peer n).state = .conflict)
    (deliver : State → State) : s.receive n target deliver = (s.heard n).settle := by
  have own : (s.heard n).own = s.own := State.own_of (by simp)
  have kept : (s.heard n).delivers n target = false := by
    rcases undelivered with ⟨m, rfl, far⟩ | conflict
    · simp [State.delivers, own, far]
    · simp [State.delivers, (State.heard_conflict s n other).mpr conflict]
  refine (State.reception_of_hears _ hears).trans ((if_neg other).trans (if_neg ?_))
  simp [kept]

theorem exec_updateReceived_of_ok {b : BitVec 16} {v : Version} {a : Byte} {w : StationSet}
    {r : Bool} {d : Data} (ok : attemptOk a = true) :
    exec (.updateReceived n b v a w r d) s =
      .next (s.receive n none (State.deliverUpdate b v w r d)) :=
  congrArg Host.Outcome.next (if_pos (.inl ok))

theorem exec_queryReceived_of_ok {b : BitVec 16} {a : Byte} {w : StationSet}
    (ok : attemptOk a = true) :
    exec (.queryReceived n b a w) s = .next (s.receive n none (State.deliverQuery n b w)) :=
  congrArg Host.Outcome.next (if_pos (.inl ok))

end

/-- Settles O35, by what the entry showed before, and for each kind of frame by its delivery. -/
theorem everyFrameRefreshesItsSender : Obligations.EveryFrameRefreshesItsSender := by
  refine ⟨fun n s => ⟨fun unheard => ?_, fun shown => ?_⟩,
    fun n target c s hears other undelivered kinds => ?_⟩
  · rcases unheard with shows | shows <;> simp only [State.heard, shows] <;> rfl
  · rcases shown with shows | shows <;> simp only [State.heard, shows] <;> rfl
  · have far : (∃ m, some target = some m ∧ m ≠ s.own) ∨ (s.peer n).state = .conflict :=
      undelivered.imp_left fun h => ⟨target, rfl, h⟩
    rcases kinds with ⟨b, v, o, rfl⟩ | ⟨b, v, h, rfl⟩ | ⟨b, rfl⟩ | ⟨b, v, d, rfl⟩ | ⟨b, rfl⟩ |
      ⟨r, vs, rfl⟩ | ⟨r, k, w, rfl⟩ | ⟨b, v, d, rfl⟩ | ⟨r, rfl⟩ | ⟨r, rfl⟩ |
      ⟨conflict, ⟨b, v, a, w, r, d, rfl, ok⟩ | ⟨b, a, w, rfl, ok⟩⟩
    case inr.inr.inr.inr.inr.inr.inr.inr.inr.inr.inl =>
      rw [exec_updateReceived_of_ok ok, State.receive_hears hears other _ (.inr conflict)]
    case inr.inr.inr.inr.inr.inr.inr.inr.inr.inr.inr =>
      rw [exec_queryReceived_of_ok ok, State.receive_hears hears other _ (.inr conflict)]
    all_goals exact congrArg Host.Outcome.next (State.receive_hears hears other _ far _)

/-! ## UPDATE and PUSH (R137, R138, R175) -/

theorem State.offer_control (s : State) (b : Nat) (v : Version) (d : Data) (source : Source) :
    (s.offer b v d source).1.control = s.control := by
  unfold State.offer
  split <;> simp

/-- Settles O36, by whether an ACK is owed and by the answer to the offer. -/
theorem updateIsOfferedAndAcknowledged : Obligations.UpdateIsOfferedAndAcknowledged := by
  intro n b v a wanted relay d u answer s gets ok offered
  have same : (((s.heard n).learn v.seq).offer b.toNat v d (if relay then .relay else .peer)).1 = u :=
    congrArg Prod.fst offered
  have own : u.own = s.own := by
    rw [← same]
    exact State.own_of ((State.offer_control ..).trans (by simp))
  have delivered : State.deliverUpdate b v wanted relay d (s.heard n) =
      if !relay ∧ hasStation wanted s.own ∧ v.origin ≠ s.own then
        u.send (some v.origin) (.ack b v answer.ack)
      else u := by
    have own' : (s.heard n).own = s.own := State.own_of (by simp)
    simp only [State.deliverUpdate, offered, own']
  rw [exec_updateReceived_of_ok ok, State.receive_gets gets none (.inl rfl), delivered]
  refine ⟨fun none => ?_, fun first named far => ?_⟩
  · rw [if_neg (by rcases none with h | h | h <;> simp [h])]
  · rw [if_pos (by simp [first, named, far])]
    refine ⟨?_, ?_, ?_⟩
    · rintro (rfl | rfl) <;> rfl
    · rintro m rfl
      rfl
    · rintro rfl
      rfl

/-- Settles O37, by the answer to the offer. -/
theorem pushIsRelayedAndAcknowledged : Obligations.PushIsRelayedAndAcknowledged := by
  intro n b v d u answer s gets offered c
  have run : exec c s = .next (State.deliverPush n b v d (s.heard n)).settle :=
    congrArg Host.Outcome.next (State.receive_gets gets (some s.own) (.inr rfl) _)
  rw [run]
  simp only [State.deliverPush, offered]
  refine ⟨?_, ?_, ?_, ?_⟩
  · rintro rfl
    rfl
  · rintro rfl
    rfl
  · rintro m rfl
    rfl
  · rintro rfl
    rfl

/-! ## ACK (R129 to R132, R171) -/

section
variable {s : State} {n : StationNo} {b : BitVec 16} {v : Version} {o : AckOutcome}

theorem State.ackProposal_of_unmatched {i : Fin 8} (h : ¬ s.AckMatches b v i) :
    State.ackProposal n b v o s i = s := if_neg h

theorem State.ackProposal_of_busy (i : Fin 8) : State.ackProposal n b v .busy s i = s := by
  simp only [State.ackProposal]
  split <;> rfl

theorem State.ackProposal_of_stored {i : Fin 8} (h : s.AckMatches b v i) :
    State.ackProposal n b v .stored s i = s.countAck i n := if_pos h

theorem State.ackProposal_of_stale {i : Fin 8} (h : s.AckMatches b v i) (held : Version) :
    State.ackProposal n b v (.stale held) s i = s.finishProposal i .superseded (some held) :=
  if_pos h

/-- What an ACK does at one proposal leaves the others as they were. -/
theorem State.proposal_ackProposal (s : State) (n : StationNo) (b : BitVec 16) (v : Version)
    (o : AckOutcome) {i j : Fin 8} (apart : i ≠ j) :
    (State.ackProposal n b v o s i).proposal j = s.proposal j := by
  have finished : ∀ (t : State) (r : Result) (w : Option Version),
      (t.finishProposal i r w).proposal j = t.proposal j := by
    intro t r w
    by_cases running : (t.proposal i).running = true
    · rw [State.proposal_finishProposal r w running, if_neg apart]
    · rw [State.finishProposal_of_not_running r w (by simpa using running)]
  have counted : ∀ p, (s.setProposal i p).proposal j = s.proposal j := fun p => by
    rw [State.proposal_setProposal, if_neg apart]
  unfold State.ackProposal State.countAck
  dsimp only
  repeat' split
  · exact (finished _ _ _).trans (counted _)
  · exact counted _
  · exact finished _ _ _
  · rfl
  · rfl

theorem State.ackMatches_of {t : State} {i : Fin 8} (h : t.proposal i = s.proposal i) :
    t.AckMatches b v i ↔ s.AckMatches b v i := by
  simp [State.AckMatches, h]

/-- The proposals take an ACK one by one: where one alone matches, it alone acts. -/
theorem State.ackProposals_of_unique {i : Fin 8}
    (unique : ∀ j, s.AckMatches b v j → j = i) :
    (List.finRange 8).foldl (State.ackProposal n b v o) s = State.ackProposal n b v o s i := by
  have idle : ∀ j, j ≠ i → ¬ s.AckMatches b v j := fun j apart h => apart (unique j h)
  refine foldl_finRange_of_unique _ s i (fun j apart => State.ackProposal_of_unmatched (idle j apart))
    fun j apart => State.ackProposal_of_unmatched ?_
  rw [State.ackMatches_of (s := s) (State.proposal_ackProposal s n b v o (Ne.symm apart))]
  exact idle j apart

theorem State.ackCursor_eq (s : State) (n : StationNo) (b : BitVec 16) (v : Version)
    (o : AckOutcome) :
    s.ackCursor n b v o =
      if s.repair.cursor.server = some n then
        { s with repair := { s.repair with cursor := { s.repair.cursor with
          pushes := s.repair.cursor.pushes.map fun p =>
            if p.state = .sent ∧ p.block = b.toNat ∧ p.version = v then
              { p with state := if o = .busy then .refused else .settled }
            else p } } }
      else s := by
  have state : AckOutcome.pushState o = if o = .busy then .refused else .settled := by
    cases o <;> rfl
  rw [← state]
  rfl

end

/-- Settles O38: the ACK goes to the one proposal it matches, if one does, and then to the cursor. -/
theorem ackCountsTowardsTheQuorum : Obligations.AckCountsTowardsTheQuorum := by
  intro n b v o s gets h settles c
  have learned : (s.heard n).learnAck v o = h := by
    cases o <;> rfl
  have cursor : ∀ u : State, u.ackCursor n b v o = settles u := fun u => u.ackCursor_eq n b v o
  have run : exec c s =
      .next (settles ((List.finRange 8).foldl (State.ackProposal n b v o) h)).settle := by
    rw [← cursor, ← learned]
    exact congrArg Host.Outcome.next (State.receive_gets gets (some s.own) (.inr rfl) _)
  have quorum : h.quorum = s.quorum := by
    rw [← learned]
    refine State.quorum_of ?_
    cases o <;> simp [State.learnAck]
  rw [run]
  refine ⟨fun idle => ?_, fun i acts unique => ?_⟩
  · rw [foldl_finRange_of_idle]
    intro j
    rcases idle with unmatched | rfl
    · exact State.ackProposal_of_unmatched (unmatched j)
    · exact State.ackProposal_of_busy j
  · rw [State.ackProposals_of_unique unique]
    have counted : ∀ k, h.countAck i k =
        if h.quorum ≤ stationCount (addStation (h.proposal i).acks k) then
          (h.setProposal i { h.proposal i with acks := addStation (h.proposal i).acks k }
            ).finishProposal i .ok none
        else h.setProposal i { h.proposal i with acks := addStation (h.proposal i).acks k } :=
      fun _ => rfl
    refine ⟨?_, ?_, ?_⟩
    · rintro rfl short
      rw [State.ackProposal_of_stored acts, counted, quorum, if_neg (Nat.not_le.mpr short)]
    · rintro rfl full
      rw [State.ackProposal_of_stored acts, counted, quorum, if_pos full]
    · rintro held rfl
      rw [State.ackProposal_of_stale acts]

/-! ## QUERY (R155) -/

theorem serving_iff (p : Phase) :
    p.serving = true ↔ p = .catchingUp ∨ p = .online ∨ p = .isolated := by
  cases p <;> simp [Phase.serving]

/-- Settles O39, by the phase the station is in once the sender is heard, and by the wanted set. -/
theorem queryIsAnsweredFromTheMap : Obligations.QueryIsAnsweredFromTheMap := by
  intro n b a wanted s gets ok h m
  have own : h.own = s.own := State.own_of (by simp [h])
  have entry : h.entryOf b.toNat = m := State.entryOf_of (by simp [h]) _
  have held : m.held = decide (m.condition = .clean ∨ m.condition = .staged) := by
    rw [Bool.eq_iff_iff, decide_eq_true_eq, MapEntry.held_iff]
  have delivered : State.deliverQuery n b wanted h =
      if h.member.phase.serving = true ∧ hasStation wanted s.own = true then
        h.send (some n) (.report b m.version
          (decide (m.condition = .clean ∨ m.condition = .staged)))
      else h := by
    simp only [State.deliverQuery, own, entry, held]
  rw [exec_queryReceived_of_ok ok, State.receive_gets gets none (.inl rfl), delivered]
  refine ⟨fun serving named => ?_, fun silent => ?_⟩
  · rw [if_pos ⟨(serving_iff _).mpr serving, named⟩]
  · refine congrArg (fun t => Host.Outcome.next (State.settle t)) (if_neg ?_)
    rintro ⟨serving, named⟩
    rcases silent with listening | unnamed
    · simp [listening, Phase.serving] at serving
    · simp [unnamed] at named

end Sys2Proof.Machine
end

section
/-! PROOF. REPORT (O40): the reports entered, the order of the fetch candidates, the end of a
collection and the choice of the next target. -/

namespace Sys2Proof.Machine

/-! ## Sets of stations -/

theorem hasStation_addStation (set : StationSet) (n k : StationNo) :
    hasStation (addStation set n) k = true ↔ hasStation set k = true ∨ n = k := by
  have bit : (1#8 <<< n.val).getLsbD k.val = true ↔ n = k := by
    have room := k.isLt
    simp only [BitVec.getLsbD_shiftLeft, BitVec.getLsbD_one, Bool.and_eq_true, decide_eq_true_eq,
      Bool.not_eq_true', decide_eq_false_iff_not, Fin.ext_iff]
    omega
  rw [hasStation, addStation, BitVec.getLsbD_or, Bool.or_eq_true, bit]
  rfl

/-! ## The order of the candidates (R150) -/

section
variable (version : StationNo → Version)

theorem mem_insertCandidate (n x : StationNo) (l : List StationNo) :
    x ∈ insertCandidate version n l ↔ x = n ∨ x ∈ l := by
  induction l with
  | nil => simp [insertCandidate]
  | cons k rest ih =>
    rw [insertCandidate]
    split
    · rw [List.mem_cons, ih, List.mem_cons]
      tauto
    · exact List.mem_cons

/-- The candidate comes before the other: it reports a newer version, or the same and has the lower
number. -/
def precedes (n k : StationNo) : Prop :=
  newer (version n) (version k) = true ∨ (version n = version k ∧ n < k)

theorem precedes_of_not_newer {n k : StationNo} (lower : n < k)
    (h : newer (version k) (version n) = false) : precedes version n k := by
  cases first : newer (version n) (version k) with
  | true => exact .inl first
  | false => exact .inr ⟨Version.eq_of_not_newer first h, lower⟩

theorem precedes_trans {n k x : StationNo} (hnk : precedes version n k)
    (hkx : precedes version k x) (lower : n < x) : precedes version n x := by
  rcases hnk with hnk | ⟨same, -⟩
  · rcases hkx with hkx | ⟨same, -⟩
    · exact .inl (newer_trans hnk hkx)
    · exact .inl (same ▸ hnk)
  · rcases hkx with hkx | ⟨same', -⟩
    · exact .inl (same ▸ hkx)
    · exact .inr ⟨same.trans same', lower⟩

/-- A candidate put into a list in order, its number the lowest, leaves the list in order. -/
theorem insertCandidate_pairwise {n : StationNo} {l : List StationNo}
    (ordered : l.Pairwise (precedes version)) (lower : ∀ k, k ∈ l → n < k) :
    (insertCandidate version n l).Pairwise (precedes version) := by
  induction l with
  | nil => exact List.pairwise_singleton _ _
  | cons k rest ih =>
    obtain ⟨head, tail⟩ := List.pairwise_cons.mp ordered
    have lowerRest : ∀ x, x ∈ rest → n < x := fun x hx => lower x (List.mem_cons_of_mem k hx)
    rw [insertCandidate]
    split
    · rename_i later
      refine List.pairwise_cons.mpr ⟨fun x hx => ?_, ih tail lowerRest⟩
      rcases (mem_insertCandidate version n x rest).mp hx with rfl | hx
      · exact .inl later
      · exact head x hx
    · rename_i notLater
      have first : precedes version n k :=
        precedes_of_not_newer version (lower k List.mem_cons_self) (by simpa using notLater)
      refine List.pairwise_cons.mpr ⟨fun x hx => ?_, ordered⟩
      rcases List.mem_cons.mp hx with rfl | hx
      · exact first
      · exact precedes_trans version first (head x hx) (lowerRest x hx)

theorem mem_foldr_insertCandidate (l : List StationNo) (x : StationNo) :
    x ∈ l.foldr (insertCandidate version) [] ↔ x ∈ l := by
  induction l with
  | nil => rfl
  | cons n rest ih => rw [List.foldr_cons, mem_insertCandidate, ih, List.mem_cons]

theorem foldr_insertCandidate_pairwise {l : List StationNo} (rising : l.Pairwise (· < ·)) :
    (l.foldr (insertCandidate version) []).Pairwise (precedes version) := by
  induction l with
  | nil => exact List.Pairwise.nil
  | cons n rest ih =>
    obtain ⟨lower, rising⟩ := List.pairwise_cons.mp rising
    exact insertCandidate_pairwise version (ih rising) fun k hk =>
      lower k ((mem_foldr_insertCandidate version rest k).mp hk)

end

theorem isCandidate_iff (m : MapEntry) (report : Option Report) :
    isCandidate m report = true ↔ ∃ r, report = some r ∧ r.held = true ∧
      (newer r.version m.version = true ∨
        (¬ (m.condition = .clean ∨ m.condition = .staged) ∧ r.version = m.version)) := by
  cases report with
  | none => simp [isCandidate]
  | some r =>
    have held : m.held = false ↔ ¬ (m.condition = .clean ∨ m.condition = .staged) := by
      rw [← MapEntry.held_iff, Bool.not_eq_true]
    simp only [isCandidate, Bool.and_eq_true, Bool.or_eq_true, Bool.not_eq_true',
      decide_eq_true_eq, held, Option.some.injEq, exists_eq_left']

section
variable (s : State)

theorem State.mem_formCandidates (e : ReadEntry) (n : StationNo) :
    n ∈ s.formCandidates e ↔
      n ≠ s.own ∧ isCandidate (s.entryOf e.block) (e.reports.get n) = true := by
  simp [State.formCandidates, mem_foldr_insertCandidate]

theorem State.formCandidates_pairwise (e : ReadEntry) :
    (s.formCandidates e).Pairwise (precedes e.reported) :=
  foldr_insertCandidate_pairwise e.reported ((List.pairwise_lt_finRange 8).filter _)

/-! ## The next target (R150) -/

/-- A candidate that the choice of a target passes over. -/
def State.Passes (s : State) (tried : StationSet) (n : StationNo) : Prop :=
  hasStation tried n = true ∨ s.presentPeer n = false

/-- What has passed over a candidate is tried it, and passes over the others as before. -/
theorem State.pickTarget_of_passed {n : StationNo} {tried : StationSet}
    (passed : s.Passes tried n) :
    ∃ after, (∀ rest, s.pickTarget (n :: rest) tried = s.pickTarget rest after) ∧
      (∀ k, hasStation after k = true ↔ hasStation tried k = true ∨ k = n) ∧
      ∀ k, s.Passes after k ↔ s.Passes tried k := by
  by_cases already : hasStation tried n = true
  · refine ⟨tried, fun rest => if_pos already, fun k => ⟨.inl, ?_⟩, fun k => Iff.rfl⟩
    rintro (h | rfl)
    · exact h
    · exact already
  · have absent : s.presentPeer n = false := passed.resolve_left already
    refine ⟨addStation tried n, fun rest => (if_neg already).trans (if_neg (by simp [absent])),
      fun k => ?_, fun k => ?_⟩
    · rw [hasStation_addStation, @eq_comm _ n k]
    · rw [State.Passes, hasStation_addStation, State.Passes]
      constructor
      · rintro ((h | rfl) | h)
        · exact .inl h
        · exact .inr absent
        · exact .inr h
      · exact fun h => h.imp_left .inl

theorem State.pickTarget_of_all_passed (pre : List StationNo) (tried : StationSet)
    (passed : ∀ k, k ∈ pre → s.Passes tried k) :
    ∃ after, (∀ rest, s.pickTarget (pre ++ rest) tried = s.pickTarget rest after) ∧
      (∀ k, hasStation after k = true ↔ hasStation tried k = true ∨ k ∈ pre) ∧
      ∀ k, s.Passes after k ↔ s.Passes tried k := by
  induction pre generalizing tried with
  | nil => exact ⟨tried, fun _ => rfl, by simp, fun _ => Iff.rfl⟩
  | cons n pre ih =>
    obtain ⟨next, steps, stations, passes⟩ :=
      s.pickTarget_of_passed (passed n List.mem_cons_self)
    obtain ⟨after, picks, all, same⟩ := ih next fun k hk =>
      (passes k).mpr (passed k (List.mem_cons_of_mem n hk))
    refine ⟨after, fun rest => (steps _).trans (picks rest), fun k => ?_,
      fun k => (same k).trans (passes k)⟩
    rw [all, stations, List.mem_cons, or_assoc]

theorem State.pickTarget_of_asked {n : StationNo} {tried : StationSet}
    (asked : ¬ s.Passes tried n) (rest : List StationNo) :
    s.pickTarget (n :: rest) tried = (tried, some n) := by
  obtain ⟨untried, present⟩ := not_or.mp asked
  exact (if_neg untried).trans (if_pos (by simpa using present))

end

/-! ## The reports entered (R147, R148) -/

section
variable (n : StationNo) (b : BitVec 16) (v : Version) (held : Bool)

/-- What a REPORT does at one read entry, for a station with the quorum given. -/
def reportEntered (quorum : Nat) (u : State) (i : Fin 4) : State :=
  let e := u.readEntry i
  let e' := { e with reports := e.reports.set n (some ⟨received v, held⟩) }
  if (e.state = .querySending ∨ e.state = .queryAwaiting) ∧ e.block = b.toNat then
    if quorum ≤ (List.finRange 8).countP fun k => (e'.reports.get k).isSome then
      (u.setRead i e').endCollection i
    else u.setRead i e'
  else u

theorem State.reportAt_eq (u : State) (i : Fin 4) :
    State.reportAt n b ⟨received v, held⟩ u i = reportEntered n b v held u.quorum u i := by
  simp only [State.reportAt, ReadEntry.collecting, Bool.or_eq_true, decide_eq_true_eq]
  rfl

theorem State.reportAt_control (u : State) (i : Fin 4) :
    (State.reportAt n b ⟨received v, held⟩ u i).control = u.control := by
  unfold State.reportAt
  dsimp only
  split <;> simp

theorem State.reportAt_foldl (l : List (Fin 4)) (u : State) :
    l.foldl (State.reportAt n b ⟨received v, held⟩) u =
      l.foldl (reportEntered n b v held u.quorum) u := by
  induction l generalizing u with
  | nil => rfl
  | cons i rest ih =>
    have quorum : (State.reportAt n b ⟨received v, held⟩ u i).quorum = u.quorum :=
      State.quorum_of (State.reportAt_control n b v held u i)
    rw [List.foldl_cons, ih, quorum, State.reportAt_eq, List.foldl_cons]

end

theorem State.endCollection_eq (s : State) (i : Fin 4) :
    s.endCollection i =
      let e := s.readEntry i
      let candidates := s.formCandidates e
      let u := (s.setRead i { e with queryWindow := none, frames := []
                                     candidates := candidates }).withdrawAll e.frames
      if candidates = [] then u.beginLocal i else u.nextTarget i := by
  unfold State.endCollection
  simp only [List.isEmpty_iff]

/-- Settles O40: by the reports entered one by one, the order of the candidates, the end of a
collection, and the target chosen among the candidates. -/
theorem reportIsEntered : Obligations.ReportIsEntered := by
  refine ⟨fun n b v held s gets => ?_, fun e s => ?_, fun i s => ?_, fun candidates tried s => ?_⟩
  · have run : exec (.reportReceived n s.own b v held) s =
        .next (State.deliverReport n b v held (s.heard n)).settle :=
      congrArg Host.Outcome.next (State.receive_gets gets (some s.own) (.inr rfl) _)
    have quorum : ((s.heard n).learn v.seq).quorum = s.quorum := State.quorum_of (by simp)
    rw [run, State.deliverReport, State.reportAt_foldl, quorum]
    rfl
  · exact ⟨fun n => (s.mem_formCandidates e n).trans (and_congr_right fun _ => isCandidate_iff _ _),
      s.formCandidates_pairwise e⟩
  · dsimp only
    rw [State.endCollection_eq]
    exact ⟨fun none => if_pos none, fun some => if_neg some⟩
  · refine ⟨fun pre n post split passed asked => ?_, fun passed => ?_⟩
    · obtain ⟨after, picks, stations, same⟩ := s.pickTarget_of_all_passed pre tried passed
      have picked : s.pickTarget candidates tried = (after, some n) := by
        rw [split, picks]
        exact s.pickTarget_of_asked (mt (same n).mp asked) post
      rw [picked]
      exact ⟨rfl, stations⟩
    · obtain ⟨after, picks, stations, -⟩ := s.pickTarget_of_all_passed candidates tried passed
      have picked : s.pickTarget candidates tried = (after, none) := by
        rw [← List.append_nil candidates, picks]
        rfl
      rw [picked]
      exact ⟨rfl, stations⟩

end Sys2Proof.Machine
end

section
/-! PROOF. The serve queue (O41), and REPAIR at the reads, the fetch slot and the cursor (O42). -/

namespace Sys2Proof.Machine

/-! ## FETCH and DIGEST join the serve queue (R161) -/

section
variable {s : State} {r : ServeRequest}

/-- A request of the requester for the same block or range waits. -/
def State.Repeats (s : State) (r : ServeRequest) : Prop :=
  ∃ q, q ∈ s.repair.serveQueue ∧ r.same q = true

/-- The serve slot answers the requester for the same block or range. -/
def State.Answers (s : State) (r : ServeRequest) : Prop :=
  ∃ job, s.repair.serve = some job ∧ r.same job.request = true

theorem State.queueRequest_of_repeats (repeats : s.Repeats r) :
    s.queueRequest r = { s with repair := { s.repair with
      serveQueue := s.repair.serveQueue.map fun q => if r.same q then r else q } } :=
  if_pos (List.any_eq_true.mpr repeats)

theorem State.queueRequest_of_new (new : ¬ s.Repeats r) :
    s.queueRequest r =
      if (s.repair.serve.map fun job => r.same job.request) = some true then s
      else if s.repair.serveQueue.length < 4 then
        s.onRepair fun e => { e with serveQueue := e.serveQueue ++ [r] }
      else s.send (some r.requester) (.busy r.refusal) :=
  if_neg (mt List.any_eq_true.mp new)

theorem State.answers_iff :
    (s.repair.serve.map fun job => r.same job.request) = some true ↔ s.Answers r :=
  Option.map_eq_some_iff

theorem ServeRequest.refusal_of_fetch {b : BitVec 16} (h : r.kind = .fetch b) :
    r.refusal = .fetch b := by
  simp only [ServeRequest.refusal, h]

theorem ServeRequest.refusal_of_digest {range : Fin 64} {vs : Vector Version 64}
    (h : r.kind = .digest range vs) : r.refusal = .digest range := by
  simp only [ServeRequest.refusal, h]

end

/-- Settles O41: by the phase for each kind of request, and by the places of the queue. -/
theorem requestsJoinTheServeQueue : Obligations.RequestsJoinTheServeQueue := by
  refine ⟨fun n b s gets => ?_, fun n range versions s gets => ?_, fun r s => ?_⟩
  · have run : exec (.fetchReceived n s.own b) s =
        .next (State.deliverFetch n b (s.heard n)).settle :=
      congrArg Host.Outcome.next (State.receive_gets gets (some s.own) (.inr rfl) _)
    rw [run]
    dsimp only
    refine ⟨fun listening => ?_, fun serving => ?_⟩
    · rw [State.deliverFetch, listening, if_neg (by simp [Phase.serving])]
    · rw [State.deliverFetch, if_pos ((serving_iff _).mpr serving)]
  · have run : exec (.digestReceived n s.own range versions) s =
        .next (State.deliverDigest n range versions (s.heard n)).settle :=
      congrArg Host.Outcome.next (State.receive_gets gets (some s.own) (.inr rfl) _)
    rw [run]
    refine ⟨fun online => ?_, fun other => ?_⟩
    · rw [State.deliverDigest, if_pos online]
    · rw [State.deliverDigest, if_neg other]
  · refine ⟨State.queueRequest_of_repeats, fun new serving => ?_, fun new idle room => ?_,
      fun new idle full => ?_⟩
    · rw [State.queueRequest_of_new new, if_pos (State.answers_iff.mpr serving)]
    · rw [State.queueRequest_of_new new, if_neg (mt State.answers_iff.mp idle), if_pos room]
      rfl
    · rw [State.queueRequest_of_new new, if_neg (mt State.answers_iff.mp idle),
        if_neg (Nat.not_lt.mpr full)]
      exact ⟨fun b fetch => by rw [ServeRequest.refusal_of_fetch fetch],
        fun range vs digest => by rw [ServeRequest.refusal_of_digest digest]⟩

/-! ## The fetch slot and the cursor meet a REPAIR (R158, R159, R168) -/

section
variable {s : State} {n : StationNo} {b : Nat}

theorem State.slotMatches_iff :
    s.slotMatches n b = true ↔ s.repair.fetch.target = some n ∧ s.repair.fetch.block = some b ∧
      (s.repair.fetch.state = .fetchSending ∨ s.repair.fetch.state = .fetchAwaiting ∨
        s.repair.fetch.state = .backOff) := by
  simp only [State.slotMatches, FetchSlot.asking, Bool.and_eq_true, Bool.or_eq_true,
    decide_eq_true_eq]
  tauto

theorem State.cursorMatches_iff :
    s.cursorMatches n b = true ↔ s.repair.cursor.server = some n ∧ b / 64 = s.repair.cursor.range ∧
      (s.repair.cursor.state = .digestSending ∨ s.repair.cursor.state = .awaitingRange ∨
        s.repair.cursor.state = .pushing) := by
  simp only [State.cursorMatches, Bool.and_eq_true, Bool.or_eq_true, decide_eq_true_eq, and_assoc,
    or_assoc]

theorem State.giveUpFetch_of_asking (block : s.repair.fetch.block = some b)
    (target : s.repair.fetch.target = some n) :
    s.giveUpFetch =
      ((s.onFetch fun f => { f with
        tried := addStation f.tried n, window := none, backOff := none, frames := [] }).withdrawAll
          s.repair.fetch.frames).chooseFetchTarget b := by
  simp only [State.giveUpFetch, block, target]

theorem State.giveUpFetch_of_idle
    (h : s.repair.fetch.block = none ∨ s.repair.fetch.target = none) : s.giveUpFetch = s := by
  unfold State.giveUpFetch
  dsimp only
  split
  · rename_i block target
    rcases h with h | h
    · simp [h] at block
    · simp [h] at target
  · rfl

/-- A peer that the slot may ask (R157). -/
theorem State.fetchEligible_iff (k : StationNo) :
    s.fetchEligible k = true ↔ k ≠ s.own ∧ (s.peer k).state = .present ∧
      ((s.peer k).reported = some .catchingUp ∨ (s.peer k).reported = some .online ∨
        (s.peer k).reported = some .isolated) ∧ hasStation s.repair.fetch.tried k = false := by
  simp only [State.fetchEligible, Bool.and_eq_true, Bool.or_eq_true, State.peerReports_iff,
    Bool.not_eq_true']
  tauto

/-- The search of a table by rising number ends at the lowest entry that it looks for. -/
theorem find?_finRange_of_least {m : Nat} {p : Fin m → Bool} {i : Fin m} (found : p i = true)
    (least : ∀ j, p j = true → i ≤ j) : (List.finRange m).find? p = some i := by
  rw [← Fin.find?_eq_find?_finRange, Fin.find?_eq_some_iff]
  refine ⟨found, fun j lower => ?_⟩
  by_contra before
  exact absurd (least j (by simpa using before)) (not_le.mpr lower)

theorem State.chooseFetchTarget_of_able {k : StationNo} (able : s.fetchEligible k = true)
    (least : ∀ j, s.fetchEligible j = true → k ≤ j) (b : Nat) :
    s.chooseFetchTarget b =
      (s.onFetch fun f => { f with state := .fetchSending, target := some k }).sendSlotFetch k b := by
  have found : (List.finRange 8).find? s.fetchEligible = some k :=
    find?_finRange_of_least able least
  simp only [State.chooseFetchTarget, found]

theorem State.chooseFetchTarget_of_none (none : ∀ k, ¬ s.fetchEligible k = true) (b : Nat) :
    s.chooseFetchTarget b =
      if s.repair.fetch.tried = 0#8 then
        s.onFetch fun f => { f with
          state := .peerWait, target := .none, backOff := some s.interval }
      else
        ((s.unlistRepair b).raise .blockUnrecovered (.block b)
          (.count (stationCount s.repair.fetch.tried))).onFetch fun _ => .idle := by
  have found : (List.finRange 8).find? s.fetchEligible = .none :=
    List.find?_eq_none.mpr fun k _ => none k
  simp only [State.chooseFetchTarget, found]

end

/-! ## REPAIR at the reads (R151) -/

section
variable {s : State} {n : StationNo} {b : Nat} {v : Version} {d : Data}

theorem ReadEntry.awaits_iff (e : ReadEntry) :
    e.awaits n b = true ↔ (e.state = .fetchSending ∨ e.state = .fetchAwaiting) ∧ e.block = b ∧
      e.target = some n := by
  simp only [ReadEntry.awaits, ReadEntry.fetching, Bool.and_eq_true, Bool.or_eq_true,
    decide_eq_true_eq, and_assoc]

/-- What a REPAIR makes of a read entry. -/
def ReadEntry.repaired (n : StationNo) (b : Nat) (e : ReadEntry) : ReadEntry :=
  if e.awaits n b = true then e.ended .ok else e

theorem State.readEntry_repairReadAt (s : State) (n : StationNo) (b : Nat) (v : Version) (d : Data)
    (i j : Fin 4) :
    (State.repairReadAt n b v d s i).readEntry j =
      if i = j then (s.readEntry i).repaired n b else s.readEntry j := by
  unfold State.repairReadAt ReadEntry.repaired
  by_cases asked : (s.readEntry i).awaits n b = true
  · rw [if_pos asked, if_pos asked,
      State.readEntry_finishRead _ _ _ (ReadEntry.running_of_awaits asked)]
  · rw [if_neg asked, if_neg asked]
    split
    · rename_i same
      rw [same]
    · rfl

theorem State.readEntry_repairReads_foldl (s : State) (n : StationNo) (b : Nat) (v : Version)
    (d : Data) (i : Fin 4) :
    ((List.finRange 4).foldl (State.repairReadAt n b v d) s).readEntry i =
      (s.readEntry i).repaired n b :=
  foldl_finRange_get (State.repairReadAt n b v d) State.readEntry (fun _ => ())
    (fun _ _ e => e.repaired n b)
    (fun s i => (s.readEntry_repairReadAt n b v d i i).trans (if_pos rfl))
    (fun s i j apart => (s.readEntry_repairReadAt n b v d i j).trans (if_neg apart))
    (fun _ _ => rfl) s i

/-- An offer leaves a read entry that asks its target as it was. -/
theorem State.readEntry_offer_of_awaits {i : Fin 4} (asked : (s.readEntry i).awaits n b = true)
    (k : Nat) (source : Source) :
    (s.offer k v d source).1.readEntry i = s.readEntry i := by
  have fetching := ((ReadEntry.awaits_iff _).mp asked).1
  have kept : (s.readEntry i).advanced s.own k (offeredVersion v source) = s.readEntry i := by
    refine if_neg fun h => ?_
    rcases h.1 with state | state <;> rcases fetching with state' | state' <;>
      simp [state] at state'
  cases judged : s.judge k v source with
  | accept =>
    rw [State.offer_of_judge_accept d judged, State.readEntry_accept, kept, ite_self]
  | duplicate | stale _ | busy => rw [State.offer_of_judge_ne_accept d judged (by simp)]

theorem State.repairReads_of_none (none : ∀ i, ¬ (s.readEntry i).awaits n b = true) :
    s.repairReads n b v d = s :=
  if_neg (by simpa using none)

theorem State.repairReads_of_some (asked : ∃ i, (s.readEntry i).awaits n b = true) :
    s.repairReads n b v d =
      (List.finRange 4).foldl (State.repairReadAt n b v d) (s.offer b v d .repair).1 :=
  if_pos (by simpa using asked)

theorem State.repairReads_finishes {i : Fin 4} (asked : (s.readEntry i).awaits n b = true) :
    ((s.repairReads n b v d).readEntry i).state = .finished ∧
      ((s.repairReads n b v d).readEntry i).result = some .ok := by
  rw [State.repairReads_of_some ⟨i, asked⟩, State.readEntry_repairReads_foldl,
    State.readEntry_offer_of_awaits asked, ReadEntry.repaired, if_pos asked]
  exact ⟨rfl, rfl⟩

/-! ## REPAIR at the repair engine (R158, R168) -/

theorem State.repairEngine_of_unmatched (slot : s.slotMatches n b = false)
    (cursor : s.cursorMatches n b = false) : s.repairEngine n b v d = s :=
  if_neg (by simp [slot, cursor])

theorem State.repairEngine_of_matched {u : State} {answer : Answer}
    (matched : s.slotMatches n b = true ∨ s.cursorMatches n b = true)
    (offered : s.offer b v d .repair = (u, answer)) :
    s.repairEngine n b v d =
      let w := if s.slotMatches n b = true then u.slotAnswer answer else u
      if s.cursorMatches n b = true then w.cursorAnswer b answer else w := by
  rw [State.repairEngine]
  dsimp only
  rw [if_pos (by simpa using matched), offered]

/-- The offset of an ACCEPT or a DUPLICATE is counted until the range is done (R168). -/
theorem State.cursorAnswer_eq (w : State) (b : Nat) (answer : Answer) :
    w.cursorAnswer b answer =
      if (answer = .accept ∨ answer = .duplicate) ∧
          (w.repair.cursor.state = .digestSending ∨ w.repair.cursor.state = .awaitingRange) then
        w.onCursor fun c => { c with counted := addOffset c.counted (b % 64) }
      else w := by
  cases answer <;> simp [State.cursorAnswer]

end

/-- Settles O42: what slot and cursor match, the choice of a target, and the REPAIR at the reads and
then, by one offer, at the slot and the cursor. -/
theorem repairAnswersItsReader : Obligations.RepairAnswersItsReader := by
  refine ⟨fun n b s => ⟨State.slotMatches_iff, State.cursorMatches_iff, rfl,
      State.giveUpFetch_of_asking, State.giveUpFetch_of_idle⟩, fun b s => ?_, ?_⟩
  · simp only [← State.fetchEligible_iff]
    refine ⟨fun k able least => ?_, fun none fresh => ?_, fun none tried => ?_⟩
    · rw [State.chooseFetchTarget_of_able able least]
      rfl
    · rw [State.chooseFetchTarget_of_none none, if_pos fresh]
      rfl
    · rw [State.chooseFetchTarget_of_none none, if_neg tried]
      rfl
  · intro n block v d s gets b h asked c r none some
    have asks : ∀ i, asked i ↔ (h.readEntry i).awaits n b = true := fun i =>
      (ReadEntry.awaits_iff _).symm
    have reads : r = h.repairReads n b v d := by
      by_cases someone : ∃ i, asked i
      · rw [some someone, State.repairReads_of_some (someone.imp fun i => (asks i).mp)]
        simp only [← ReadEntry.awaits_iff]
        rfl
      · have noone := not_exists.mp someone
        rw [none noone, State.repairReads_of_none fun i => mt (asks i).mpr (noone i)]
    have run : exec c s = .next (r.repairEngine n b v d).settle := by
      rw [reads]
      exact congrArg Host.Outcome.next (State.receive_gets gets (Option.some s.own) (.inr rfl) _)
    rw [run]
    refine ⟨fun _ i asking => ?_, fun slot cursor => ?_,
      fun matched u answer offered w stale busy kept => ?_⟩
    · rw [reads]
      exact State.repairReads_finishes ((asks i).mp asking)
    · rw [State.repairEngine_of_unmatched slot cursor]
    · have slot : (if r.slotMatches n b = true then u.slotAnswer answer else u) = w := by
        by_cases slot : r.slotMatches n b = true
        · rw [if_pos slot]
          cases answer with
          | accept => exact (kept (.inr (.inl rfl))).symm
          | duplicate => exact (kept (.inr (.inr rfl))).symm
          | stale m => exact (stale slot ⟨m, rfl⟩).symm
          | busy => exact (busy slot rfl).symm
        · rw [if_neg slot, kept (.inl (by simpa using slot))]
      rw [State.repairEngine_of_matched matched offered]
      simp only [slot, State.cursorAnswer_eq]
      refine ⟨fun counts => ?_, fun skips => ?_⟩
      · rw [if_pos counts.1, if_pos counts.2]
        rfl
      · by_cases cursor : r.cursorMatches n b = true
        · rw [if_pos cursor, if_neg fun counts => skips ⟨cursor, counts⟩]
        · rw [if_neg cursor]

end Sys2Proof.Machine
end

section
/-! PROOF. NOT_HELD and the peer-lost notice (O43), and BUSY and NOT_SERVING (O45). -/

namespace Sys2Proof.Machine

/-! ## NOT_HELD (R152, R159) -/

section
variable {s : State} {n : StationNo} {b : Nat}

theorem State.notHeldAt_eq (n : StationNo) (b : Nat) :
    State.notHeldAt n b = fun u i =>
      if ((u.readEntry i).state = .fetchSending ∨ (u.readEntry i).state = .fetchAwaiting) ∧
          (u.readEntry i).block = b ∧ (u.readEntry i).target = some n then u.giveUpTarget i
      else u := by
  funext u i
  simp only [State.notHeldAt, ReadEntry.awaits_iff]

theorem State.notHeldSlot_eq (u : State) (n : StationNo) (b : Nat) :
    u.notHeldSlot n b =
      if (u.repair.fetch.state = .fetchSending ∨ u.repair.fetch.state = .fetchAwaiting) ∧
          u.repair.fetch.target = some n ∧ u.repair.fetch.block = some b then u.giveUpFetch
      else u := by
  have asks : u.slotMatches n b = true ∧ u.repair.fetch.state ≠ .backOff ↔
      (u.repair.fetch.state = .fetchSending ∨ u.repair.fetch.state = .fetchAwaiting) ∧
        u.repair.fetch.target = some n ∧ u.repair.fetch.block = some b := by
    rw [State.slotMatches_iff]
    constructor
    · rintro ⟨⟨target, block, state⟩, other⟩
      rcases state with state | state | state
      · exact ⟨.inl state, target, block⟩
      · exact ⟨.inr state, target, block⟩
      · exact absurd state other
    · rintro ⟨state | state, target, block⟩
      · exact ⟨⟨target, block, .inl state⟩, by simp [state]⟩
      · exact ⟨⟨target, block, .inr (.inl state)⟩, by simp [state]⟩
  simp only [State.notHeldSlot, asks]

/-! ## The peer-lost notice (R106, R152, R159, R161, R162, R173) -/

theorem State.readPeerLostAt_eq (n : StationNo) :
    (fun (u : State) (i : Fin 4) => u.readPeerLostAt n i) = fun u i =>
      if ((u.readEntry i).state = .fetchSending ∨ (u.readEntry i).state = .fetchAwaiting) ∧
          (u.readEntry i).target = some n then u.giveUpTarget i
      else u := by
  funext u i
  simp only [State.readPeerLostAt, ReadEntry.fetching, Bool.or_eq_true, decide_eq_true_eq]

theorem State.fetchPeerLost_eq (u : State) (n : StationNo) :
    u.fetchPeerLost n =
      if (u.repair.fetch.state = .fetchSending ∨ u.repair.fetch.state = .fetchAwaiting ∨
          u.repair.fetch.state = .backOff) ∧ u.repair.fetch.target = some n then u.giveUpFetch
      else u := by
  simp only [State.fetchPeerLost, FetchSlot.asking, Bool.and_eq_true, Bool.or_eq_true,
    decide_eq_true_eq, or_assoc]

/-- The serve queue without the requests of a peer. -/
def State.withoutRequests (s : State) (n : StationNo) : State :=
  s.onRepair fun r => { r with serveQueue := r.serveQueue.filter (·.requester ≠ n) }

theorem State.servePeerLost_of_served {job : ServeJob} (serves : s.repair.serve = some job)
    (peer : job.request.requester = n) :
    s.servePeerLost n = (s.withoutRequests n).stopServe := by
  simp only [State.servePeerLost, serves, if_pos peer]
  rfl

theorem State.servePeerLost_of_other
    (other : ∀ job, s.repair.serve = some job → job.request.requester ≠ n) :
    s.servePeerLost n = s.withoutRequests n := by
  unfold State.servePeerLost
  dsimp only
  split
  · rename_i job serves
    exact if_neg (other job serves)
  · rfl

theorem State.stopServe_of_ready {job : ServeJob} (serves : s.repair.serve = some job)
    (stage : job.stage = .ready) : s.stopServe = s.setServe none := by
  simp only [State.stopServe, serves, stage]

theorem State.stopServe_of_reading {job : ServeJob} {id : Nat}
    (serves : s.repair.serve = some job) (stage : job.stage = .reading id) :
    s.stopServe = (s.setServe none).dropEngineRequest id := by
  simp only [State.stopServe, serves, stage]

theorem State.stopServe_of_placing {job : ServeJob} {id : Nat} {last : Bool}
    (serves : s.repair.serve = some job) (stage : job.stage = .placing id last) :
    s.stopServe = (s.setServe none).withdraw id := by
  simp only [State.stopServe, serves, stage]

end

/-- Settles O43: NOT_HELD, the peer-lost notice unit by unit, and what a stopped serve slot drops. -/
theorem notHeldMovesToTheNextTarget : Obligations.NotHeldMovesToTheNextTarget := by
  refine ⟨fun n block s gets => ?_, ?_, fun job s serves => ?_⟩
  · have run : exec (.notHeldReceived n s.own block) s =
        .next (State.deliverNotHeld n block (s.heard n)).settle :=
      congrArg Host.Outcome.next (State.receive_gets gets (some s.own) (.inr rfl) _)
    rw [run, State.deliverNotHeld, State.notHeldSlot_eq, State.notHeldAt_eq]
  · intro n s reads f slot queue u served other
    have first : s.readPeerLost n = reads := by
      rw [State.readPeerLost, State.readPeerLostAt_eq]
    have second : reads.fetchPeerLost n = slot := State.fetchPeerLost_eq reads n
    have third : slot.servePeerLost n = u := by
      by_cases serves : ∃ job, slot.repair.serve = some job ∧ job.request.requester = n
      · obtain ⟨job, serves', peer⟩ := serves
        rw [served ⟨job, serves', peer⟩, State.servePeerLost_of_served serves' peer]
        rfl
      · have others : ∀ job, slot.repair.serve = some job → job.request.requester ≠ n :=
          fun job h peer => serves ⟨job, h, peer⟩
        rw [other others, State.servePeerLost_of_other others]
        rfl
    have lost : s.peerLost n = u.cursorPeerLost n := by
      rw [State.peerLost, first, second, third]
    rw [lost]
    refine ⟨fun works asks => if_pos ⟨works, asks⟩, fun idle => if_neg ?_⟩
    rintro ⟨works, asks⟩
    exact idle.elim works fun h => h asks
  · exact ⟨State.stopServe_of_ready serves, fun id => State.stopServe_of_reading serves,
      fun id last => State.stopServe_of_placing serves⟩

/-! ## BUSY and NOT_SERVING (R152, R159, R173) -/

section
variable (s : State) (n : StationNo) (b : Nat)

/-- What a BUSY makes of a read entry, at a station with the interval given. -/
def ReadEntry.refused (n : StationNo) (b interval : Nat) (e : ReadEntry) : ReadEntry :=
  if e.state = .fetchAwaiting ∧ e.block = b ∧ e.target = some n ∧ e.backOff = none then
    { e with backOff := some interval }
  else e

theorem State.busyReadAt_eq (i : Fin 4) :
    State.busyReadAt n b s i = s.setRead i ((s.readEntry i).refused n b s.interval) ∨
      State.busyReadAt n b s i = s ∧ (s.readEntry i).refused n b s.interval = s.readEntry i := by
  have awaits : (s.readEntry i).awaits n b = true ∧ (s.readEntry i).state = .fetchAwaiting ∧
      (s.readEntry i).backOff = none ↔ (s.readEntry i).state = .fetchAwaiting ∧
        (s.readEntry i).block = b ∧ (s.readEntry i).target = some n ∧
        (s.readEntry i).backOff = none := by
    rw [ReadEntry.awaits_iff]
    tauto
  simp only [State.busyReadAt, ReadEntry.refused, awaits]
  split
  · exact .inl rfl
  · exact .inr ⟨rfl, rfl⟩

theorem State.readEntry_busyReadAt (i j : Fin 4) :
    (State.busyReadAt n b s i).readEntry j =
      if i = j then (s.readEntry i).refused n b s.interval else s.readEntry j := by
  rcases s.busyReadAt_eq n b i with acts | ⟨idle, same⟩
  · rw [acts, State.readEntry_setRead]
  · rw [idle, same]
    split
    · rename_i here
      rw [here]
    · rfl

@[simp] theorem State.busyReadAt_keeps (i : Fin 4) :
    (State.busyReadAt n b s i).control = s.control ∧ (State.busyReadAt n b s i).member = s.member ∧
    (State.busyReadAt n b s i).store = s.store ∧ (State.busyReadAt n b s i).media = s.media ∧
    (State.busyReadAt n b s i).line = s.line ∧ (State.busyReadAt n b s i).writes = s.writes ∧
    (State.busyReadAt n b s i).repair = s.repair ∧
    (State.busyReadAt n b s i).client = s.client := by
  rcases s.busyReadAt_eq n b i with acts | ⟨idle, -⟩
  · simp [acts]
  · simp [idle]

/-- The reads take a BUSY. -/
def State.busyReads : State := (List.finRange 4).foldl (State.busyReadAt n b) s

@[simp] theorem State.busyReads_keeps :
    (s.busyReads n b).control = s.control ∧ (s.busyReads n b).member = s.member ∧
    (s.busyReads n b).store = s.store ∧ (s.busyReads n b).media = s.media ∧
    (s.busyReads n b).line = s.line ∧ (s.busyReads n b).writes = s.writes ∧
    (s.busyReads n b).repair = s.repair ∧ (s.busyReads n b).client = s.client := by
  have kept := foldl_keeps (fun s : State =>
      (s.control, s.member, s.store, s.media, s.line, s.writes, s.repair, s.client))
    (State.busyReadAt n b) (fun s i => by simp) (List.finRange 4) s
  simp only [Prod.mk.injEq] at kept
  exact kept

theorem State.readEntry_busyReads (i : Fin 4) :
    (s.busyReads n b).readEntry i = (s.readEntry i).refused n b s.interval :=
  foldl_finRange_get (State.busyReadAt n b) State.readEntry State.interval
    (fun interval _ e => e.refused n b interval)
    (fun s i => (s.readEntry_busyReadAt n b i i).trans (if_pos rfl))
    (fun s i j apart => (s.readEntry_busyReadAt n b i j).trans (if_neg apart))
    (fun s i => State.interval_of (by simp)) s i

theorem State.busySlot_eq :
    s.busySlot n b =
      if s.repair.fetch.state = .fetchAwaiting ∧ s.repair.fetch.target = some n ∧
          s.repair.fetch.block = some b ∧ s.repair.fetch.backOff = none then
        s.onFetch fun f => { f with backOff := some s.interval }
      else s := by
  have awaits : s.slotMatches n b = true ∧ s.repair.fetch.state = .fetchAwaiting ∧
      s.repair.fetch.backOff = none ↔ s.repair.fetch.state = .fetchAwaiting ∧
        s.repair.fetch.target = some n ∧ s.repair.fetch.block = some b ∧
        s.repair.fetch.backOff = none := by
    rw [State.slotMatches_iff]
    tauto
  simp only [State.busySlot, awaits]

theorem State.busySlot_keeps :
    (s.busySlot n b).member = s.member ∧ (s.busySlot n b).store = s.store ∧
    (s.busySlot n b).media = s.media ∧ (s.busySlot n b).line = s.line ∧
    (s.busySlot n b).writes = s.writes ∧ (s.busySlot n b).reads = s.reads ∧
    (s.busySlot n b).client = s.client := by
  rw [State.busySlot_eq]
  split <;> simp

theorem State.busySlot_repair :
    (s.busySlot n b).repair =
      if s.repair.fetch.state = .fetchAwaiting ∧ s.repair.fetch.target = some n ∧
          s.repair.fetch.block = some b ∧ s.repair.fetch.backOff = none then
        { s.repair with fetch := { s.repair.fetch with backOff := some s.interval } }
      else s.repair := by
  rw [State.busySlot_eq]
  split <;> rfl

end

/-- Settles O45: BUSY at the reads and the slot, BUSY at the cursor, and NOT_SERVING. -/
theorem busyAndNotServingAnswers : Obligations.BusyAndNotServingAnswers := by
  refine ⟨?_, fun n range s gets => ?_, fun n range s gets => ?_⟩
  · intro n block s gets b h
    have run : exec (.busyReceived n s.own (.fetch block)) s =
        .next ((h.busyReads n b).busySlot n b).settle :=
      congrArg Host.Outcome.next (State.receive_gets gets (some s.own) (.inr rfl) _)
    have interval : h.interval = s.interval := State.interval_of (by simp [h])
    have interval' : (h.busyReads n b).interval = s.interval :=
      (State.interval_of (by simp)).trans interval
    obtain ⟨member, store, media, line, writes, reads, client⟩ :=
      (h.busyReads n b).busySlot_keeps n b
    refine ⟨_, run, fun i => ?_, ?_, ?_, ?_, ?_, ?_, ?_, ?_⟩
    · rw [State.readEntry_of reads, State.readEntry_busyReads, interval]
      rfl
    · have repair : (h.busyReads n b).repair = h.repair := by simp
      rw [State.busySlot_repair, interval', repair]
    · simp [member]
    · simp [store]
    · simp [media]
    · simp [line]
    · simp [writes]
    · simp [client]
  · have run : exec (.busyReceived n s.own (.digest range)) s =
        .next ((s.heard n).busyCursor n range).settle :=
      congrArg Host.Outcome.next (State.receive_gets gets (some s.own) (.inr rfl) _)
    have interval : (s.heard n).interval = s.interval := State.interval_of (by simp)
    rw [run]
    refine ⟨fun awaits => ?_, fun other => ?_⟩
    · rw [State.busyCursor, if_pos awaits, interval]
      rfl
    · rw [State.busyCursor, if_neg other]
  · have run : exec (.notServingReceived n s.own range) s =
        .next (State.deliverNotServing n range (s.heard n)).settle :=
      congrArg Host.Outcome.next (State.receive_gets gets (some s.own) (.inr rfl) _)
    rw [run]
    refine ⟨fun current => ?_, fun other => ?_⟩
    · rw [State.deliverNotServing, if_pos current]
    · rw [State.deliverNotServing, if_neg other]

end Sys2Proof.Machine
end

section
/-! PROOF. RANGE_DONE and the catch-up cursor at work in PUSHING (O44). -/

namespace Sys2Proof.Machine

/-! ## The pending pushes (R169 to R171) -/

section
variable {pre post : List PendingPush} {p : PendingPush}

theorem find_notSent (waits : p.state = .notSent)
    (before : ∀ q, q ∈ pre → q.state ≠ .notSent) :
    (pre ++ p :: post).find? (·.state = .notSent) = some p := by
  rw [List.find?_append, List.find?_eq_none.mpr fun q hq => by simpa using before q hq,
    Option.none_or, List.find?_cons_of_pos (by simpa using waits)]

theorem dropNotSent_eq (waits : p.state = .notSent)
    (before : ∀ q, q ∈ pre → q.state ≠ .notSent) :
    dropNotSent (pre ++ p :: post) = pre ++ post := by
  induction pre with
  | nil => exact if_pos waits
  | cons q pre ih =>
    rw [List.cons_append, dropNotSent, if_neg (before q List.mem_cons_self),
      ih fun x hx => before x (List.mem_cons_of_mem q hx), List.cons_append]

theorem markSent_eq (waits : p.state = .notSent)
    (before : ∀ q, q ∈ pre → q.state ≠ .notSent) (v : Version) :
    markSent v (pre ++ p :: post) = pre ++ { p with version := v, state := .sent } :: post := by
  induction pre with
  | nil => exact if_pos waits
  | cons q pre ih =>
    rw [List.cons_append, markSent, if_neg (before q List.mem_cons_self),
      ih fun x hx => before x (List.mem_cons_of_mem q hx), List.cons_append]

end

/-! ## RANGE_DONE (R169) -/

section
variable {s : State} {n : StationNo} {range : Fin 64} {sent : Byte} {want : OffsetSet}

theorem State.takeRangeDone_of_counted
    (counted : offsetCount s.repair.cursor.counted = sent.toNat) :
    s.takeRangeDone range sent want =
      s.onCursor fun c => { c with
        rangeWindow := none, state := .pushing, work := .ready
        pushes := s.formPushes range want } := if_pos counted

theorem State.takeRangeDone_of_missing
    (missing : offsetCount s.repair.cursor.counted ≠ sent.toNat) :
    s.takeRangeDone range sent want =
      (s.onCursor fun c => { c with rangeWindow := none }).failAttempt := if_neg missing

theorem State.formPushes_of {t : State} (h : t.store = s.store) (range : Fin 64)
    (want : OffsetSet) : t.formPushes range want = s.formPushes range want := by
  simp only [State.formPushes, State.entryOf_of h]

end

/-! ## The cursor's next action (R170, R171) -/

section
variable {s : State}

theorem State.cursorStep_of_idle
    (h : s.repair.cursor.state ≠ .pushing ∨ s.repair.cursor.work ≠ .ready) :
    s.cursorStep = none :=
  if_neg fun works => h.elim (· works.1) (· works.2)

theorem State.cursorStep_of_notSent {p : PendingPush} (pushing : s.repair.cursor.state = .pushing)
    (ready : s.repair.cursor.work = .ready)
    (found : s.repair.cursor.pushes.find? (·.state = .notSent) = some p) :
    s.cursorStep = some (s.startPush p.block) := by
  refine (if_pos ⟨pushing, ready⟩).trans ?_
  simp only [found]

theorem State.cursorStep_of_sent (pushing : s.repair.cursor.state = .pushing)
    (ready : s.repair.cursor.work = .ready)
    (none : ∀ p, p ∈ s.repair.cursor.pushes → p.state ≠ .notSent) :
    s.cursorStep =
      if ∀ p, p ∈ s.repair.cursor.pushes → p.state = .settled then some s.rangeDone
      else if ∀ p, p ∈ s.repair.cursor.pushes → p.state ≠ .sent then some s.failAttempt
      else Option.none := by
  have missing : s.repair.cursor.pushes.find? (·.state = .notSent) = Option.none :=
    List.find?_eq_none.mpr fun p hp => by simpa using none p hp
  refine (if_pos ⟨pushing, ready⟩).trans ?_
  simp only [missing, List.all_eq_true, decide_eq_true_eq]

theorem State.startPush_of_staged {b : Nat} {n : StationNo}
    (staged : (s.entryOf b).condition = .staged) (server : s.repair.cursor.server = some n) :
    s.startPush b =
      (s.onCursor fun c => { c with
        work := .placing s.line.nextId, frames := c.frames ++ [s.line.nextId] }).bumpId.place
          s.line.nextId (s.build (some n)
            (.push (BitVec.ofNat 16 b) (s.entryOf b).version (s.stagedData b))) := by
  simp only [State.startPush, staged, State.placePush, server]

theorem State.startPush_of_clean {b : Nat} (clean : (s.entryOf b).condition = .clean) :
    s.startPush b =
      (s.onCursor fun c => { c with work := .reading s.line.nextId }).requestEngine .cursor b := by
  simp only [State.startPush, clean]

theorem State.startPush_of_not_held {b : Nat}
    (lost : (s.entryOf b).condition = .unwritten ∨ (s.entryOf b).condition = .lost) :
    s.startPush b = s.onCursor fun c => { c with pushes := dropNotSent c.pushes } := by
  rcases lost with lost | lost <;> simp only [State.startPush, lost]

theorem State.rangeDone_of_more (more : s.repair.cursor.range < 63) :
    s.rangeDone = (s.onCursor fun c => { c with
      range := c.range + 1, attempt := 1, tried := 0#8, rangeWindow := none
      pushDeadline := none }).startDigest := if_pos more

/-- The station whose cursor has done its last range (R171). -/
def State.caughtUp (s : State) : State :=
  (s.onCursor fun c =>
    { Cursor.idle with range := 64, earlier := c.earlier ++ c.frames }).onMember fun m =>
      { m with origin := none }

/-- The last range done, catch-up completes by the number of the visible (R112). -/
theorem State.rangeDone_of_last (last : 63 ≤ s.repair.cursor.range) :
    s.rangeDone = s.caughtUp.enterPhase (if s.quorum ≤ s.visible then .online else .isolated) :=
  if_neg (Nat.not_lt.mpr last)

/-- The cursor's PUSH that joins makes its push SENT (R170). -/
theorem State.join_cursor_push {id : Nat} (placing : s.repair.cursor.work = .placing id)
    (f : Frame) {b : BitVec 16} {v : Version} {d : Data} (body : f.body = .push b v d) :
    (s.join id f).repair.cursor =
      { s.repair.cursor with work := .ready, pushes := markSent v s.repair.cursor.pushes } := by
  have joined : (s.join id f).repair.cursor = s.repair.cursor.joined id f := rfl
  rw [joined, Cursor.joined, if_pos placing]
  simp only [body]

theorem State.reportCursor_readable {request : ReadRequest} {n : StationNo}
    (reading : s.repair.cursor.work = .reading request.id)
    (server : s.repair.cursor.server = some n) (v : Version) (d : Data) :
    s.reportCursor request (.readable v d) =
      (s.onCursor fun c => { c with
        work := .placing s.line.nextId, frames := c.frames ++ [s.line.nextId] }).bumpId.place
          s.line.nextId (s.build (some n) (.push (BitVec.ofNat 16 request.block) v d)) := by
  refine (if_pos reading).trans ?_
  simp only [State.placePush, server]

theorem State.reportCursor_other {request : ReadRequest} {report : MediaReport}
    (reading : s.repair.cursor.work = .reading request.id)
    (other : report = .declined ∨ report = .unreadable) :
    s.reportCursor request report = s.onCursor fun c => { c with work := .ready } := by
  rcases other with rfl | rfl <;> exact if_pos reading

end

/-- Settles O44: the RANGE_DONE taken, the cursor's actions by its first push not sent, the end of a
range, and the PUSH as it joins and as its read is reported. -/
theorem rangeDoneFormsThePushes : Obligations.RangeDoneFormsThePushes := by
  refine ⟨fun n range sent want s gets => ?_, ?_, ?_, ?_, ?_⟩
  · have run : exec (.rangeDoneReceived n s.own range sent want) s =
        .next (State.deliverRangeDone n range sent want (s.heard n)).settle :=
      congrArg Host.Outcome.next (State.receive_gets gets (some s.own) (.inr rfl) _)
    have pushes : (s.heard n).formPushes range want = s.formPushes range want :=
      State.formPushes_of (by simp) range want
    rw [run]
    refine ⟨fun other => ?_, fun taken counted => ?_, fun taken missing => ?_⟩
    · rw [State.deliverRangeDone, if_neg other]
    · rw [State.deliverRangeDone, if_pos taken, State.takeRangeDone_of_counted counted, pushes]
      rfl
    · rw [State.deliverRangeDone, if_pos taken, State.takeRangeDone_of_missing missing]
      rfl
  · intro s c id cursor
    refine ⟨State.cursorStep_of_idle, fun pushing ready =>
      ⟨fun pre p post split waits before => ?_, fun none => ?_⟩⟩
    · have found : c.pushes.find? (·.state = .notSent) = some p := by
        rw [split]
        exact find_notSent waits before
      rw [State.cursorStep_of_notSent pushing ready found]
      refine ⟨fun n staged server => ?_, fun clean => ?_, fun lost => ?_⟩
      · rw [State.startPush_of_staged staged server]
        rfl
      · rw [State.startPush_of_clean clean]
        rfl
      · have dropped : dropNotSent c.pushes = pre ++ post := by
          rw [split]
          exact dropNotSent_eq waits before
        rw [State.startPush_of_not_held lost, ← dropped]
        rfl
    · rw [State.cursorStep_of_sent pushing ready none]
      refine ⟨fun settled => if_pos settled, fun unsettled => ?_⟩
      obtain ⟨p, member, unsettled⟩ := unsettled
      rw [if_neg fun settled => unsettled (settled p member)]
      refine ⟨fun refused => if_pos refused, fun sent => if_neg fun refused => ?_⟩
      obtain ⟨q, member, sent⟩ := sent
      exact refused q member sent
  · intro s
    refine ⟨fun more => State.rangeDone_of_more more, fun last => ⟨fun quorum => ?_, fun short => ?_⟩⟩
    · rw [State.rangeDone_of_last last, if_pos quorum]
      rfl
    · rw [State.rangeDone_of_last last, if_neg (Nat.not_le.mpr short)]
      rfl
  · intro id b v d n s placing pre p post split waits before
    rw [State.join_cursor_push placing _ rfl, split, markSent_eq waits before]
  · intro id b s reading c next
    refine ⟨fun n v d server => ?_, fun report other => ?_⟩
    · exact State.reportCursor_readable (request := ⟨.cursor, id, b⟩) reading server v d
    · exact State.reportCursor_other (request := ⟨.cursor, id, b⟩) reading other

end Sys2Proof.Machine
end

section
/-! PROOF. What the phase notices leave of the repair engine: the serve slot and queue, the fetch
slot and the cursor (R107, R160 to R162, R174). -/

namespace Sys2Proof.Machine

/-! ## The request that the serve slot answers -/

/-- The serve slot is free, or answers a request of the kind given. -/
def State.ServesOnly (s : State) (P : ServeRequest → Prop) : Prop :=
  ∀ job, s.repair.serve = some job → P job.request

section
variable {s : State} {P : ServeRequest → Prop}

theorem State.servesOnly_of_none (h : s.repair.serve = none) : s.ServesOnly P := by
  intro job serves
  simp [h] at serves

theorem State.serve_eq_none_iff : s.repair.serve = none ↔ s.ServesOnly fun _ => False := by
  refine ⟨State.servesOnly_of_none, fun h => ?_⟩
  cases serves : s.repair.serve with
  | none => rfl
  | some job => exact (h job serves).elim

theorem ServeJob.request_of_joined {job after : ServeJob} {id : Nat}
    (h : job.joined id = some after) : after.request = job.request := by
  unfold ServeJob.joined at h
  repeat' split at h
  · cases h
  · obtain rfl := Option.some.inj h
    rfl
  · obtain rfl := Option.some.inj h
    rfl
  · obtain rfl := Option.some.inj h
    rfl

theorem State.join_servesOnly (h : s.ServesOnly P) (id : Nat) (f : Frame) :
    (s.join id f).ServesOnly P := by
  intro after serves
  have bound : (s.repair.serve.bind fun job => job.joined id) = some after := serves
  obtain ⟨job, serves, joined⟩ := Option.bind_eq_some_iff.mp bound
  rw [ServeJob.request_of_joined joined]
  exact h job serves

theorem State.place_servesOnly (h : s.ServesOnly P) (id : Nat) (f : Frame) :
    (s.place id f).ServesOnly P := by
  unfold State.place
  split
  · exact State.join_servesOnly h id f
  split
  · exact h
  · exact h

theorem State.send_servesOnly (h : s.ServesOnly P) (target : Option StationNo) (body : Body) :
    (s.send target body).ServesOnly P :=
  State.place_servesOnly (s := s.bumpId) h _ _

theorem State.handOut_servesOnly (h : s.ServesOnly P) : s.handOut.ServesOnly P := by
  unfold State.handOut
  repeat' split
  · exact h
  · exact State.join_servesOnly (s := s.onLine _) h _ _
  · exact h

theorem State.withdraw_servesOnly (h : s.ServesOnly P) (id : Nat) :
    (s.withdraw id).ServesOnly P := by
  unfold State.withdraw
  repeat' split
  · exact h
  · exact h
  · exact State.handOut_servesOnly (s := s.onLine _) h
  · exact h

theorem State.withdrawAll_servesOnly (h : s.ServesOnly P) (ids : List Nat) :
    (s.withdrawAll ids).ServesOnly P := by
  have each : ∀ (l : List Nat) (t : State), t.ServesOnly P →
      (l.foldl State.withdraw t).ServesOnly P := by
    intro l
    induction l with
    | nil => exact fun _ h => h
    | cons id rest ih => exact fun t h => ih _ (State.withdraw_servesOnly h id)
  exact each ids (s.onLine _) h

theorem State.refuseDigest_servesOnly (h : s.ServesOnly P) (r : ServeRequest) :
    (s.refuseDigest r).ServesOnly P := by
  unfold State.refuseDigest
  split
  · exact State.send_servesOnly h _ _
  · exact h

theorem State.haltCursor_servesOnly (h : s.ServesOnly P) : s.haltCursor.ServesOnly P := by
  have withdrawn := State.withdrawAll_servesOnly (s := s.onCursor fun c =>
    { c with rangeWindow := none, pushDeadline := none, backOff := none, rest := none,
             work := .ready, frames := [], earlier := [] }) h
      (s.repair.cursor.earlier ++ s.repair.cursor.frames)
  unfold State.haltCursor
  dsimp only
  split
  · exact withdrawn
  · exact withdrawn

theorem State.stopCursor_servesOnly (h : s.ServesOnly P) : s.stopCursor.ServesOnly P := by
  unfold State.stopCursor
  split
  · exact h
  · exact State.haltCursor_servesOnly h

@[simp] theorem State.stopServe_serve (s : State) : s.stopServe.repair.serve = none := by
  unfold State.stopServe
  split
  · assumption
  split
  · rfl
  · rfl
  · rename_i id last _
    exact State.serve_eq_none_iff.mpr
      (State.withdraw_servesOnly (s := s.setServe none) (State.servesOnly_of_none rfl) id)

end

/-! ## The units the notices leave alone -/

section
variable (s : State)

@[simp] theorem State.send_keeps_repair (target : Option StationNo) (body : Body) :
    (s.send target body).repair.fetch = s.repair.fetch ∧
    (s.send target body).repair.serveQueue = s.repair.serveQueue := by
  simp [State.send]

@[simp] theorem State.dropEngineRequest_keeps_repair (id : Nat) :
    (s.dropEngineRequest id).repair = s.repair := rfl

@[simp] theorem State.stopServe_keeps_repair :
    s.stopServe.repair.fetch = s.repair.fetch ∧
    s.stopServe.repair.serveQueue = s.repair.serveQueue := by
  unfold State.stopServe
  (repeat' split) <;> simp

@[simp] theorem State.refuseDigest_keeps_repair (r : ServeRequest) :
    (s.refuseDigest r).repair.fetch = s.repair.fetch ∧
    (s.refuseDigest r).repair.serveQueue = s.repair.serveQueue := by
  unfold State.refuseDigest
  split <;> simp

@[simp] theorem State.haltCursor_keeps_repair :
    s.haltCursor.repair.fetch = s.repair.fetch ∧
    s.haltCursor.repair.serveQueue = s.repair.serveQueue := by
  unfold State.haltCursor
  dsimp only
  split <;> simp

@[simp] theorem State.stopCursor_keeps_repair :
    s.stopCursor.repair.fetch = s.repair.fetch ∧
    s.stopCursor.repair.serveQueue = s.repair.serveQueue := by
  unfold State.stopCursor
  split <;> simp

@[simp] theorem State.isolateServeSlot_keeps_repair :
    s.isolateServeSlot.repair.fetch = s.repair.fetch ∧
    s.isolateServeSlot.repair.serveQueue = s.repair.serveQueue := by
  unfold State.isolateServeSlot
  (repeat' split) <;> simp

@[simp] theorem State.stopCursor_cursor : s.stopCursor.repair.cursor.state = .idle := by
  unfold State.stopCursor
  split
  · assumption
  · rfl

/-! ## The serve slot and queue in ISOLATED (R161, R162) -/

/-- A request is refused: NOT_SERVING for a DIGEST, nothing for a FETCH. -/
theorem State.refuseDigest_eq (r : ServeRequest) :
    s.refuseDigest r = match r.kind with
      | .digest range _ =>
        s.bumpId.place s.line.nextId ⟨s.own, some r.requester, .notServing range⟩
      | .fetch _ => s := by
  cases kind : r.kind with
  | fetch b => simp only [State.refuseDigest, ServeRequest.digestRange, kind]
  | digest range vs =>
    simp only [State.refuseDigest, ServeRequest.digestRange, kind]
    rfl

theorem ServeRequest.digestRange_of_fetch {r : ServeRequest} {b : BitVec 16}
    (h : r.kind = .fetch b) : r.digestRange = none := by
  simp only [ServeRequest.digestRange, h]

theorem ServeRequest.digestRange_of_digest {r : ServeRequest} {range : Fin 64}
    {vs : Vector Version 64} (h : r.kind = .digest range vs) : r.digestRange = some range := by
  simp only [ServeRequest.digestRange, h]

theorem State.refuseDigest_of_fetch {r : ServeRequest} (h : r.digestRange = none) :
    s.refuseDigest r = s := by
  simp only [State.refuseDigest, h]

theorem State.isolateServeSlot_of_free (free : s.repair.serve = none) :
    s.isolateServeSlot = s := by
  simp only [State.isolateServeSlot, free]

theorem State.isolateServeSlot_of_fetch {job : ServeJob} (serves : s.repair.serve = some job)
    (fetch : job.request.digestRange = none) : s.isolateServeSlot = s := by
  simp only [State.isolateServeSlot, serves, fetch, Option.isSome_none, Bool.false_eq_true,
    if_false]

theorem State.isolateServeSlot_of_digest {job : ServeJob} {range : Fin 64}
    (serves : s.repair.serve = some job) (digest : job.request.digestRange = some range) :
    s.isolateServeSlot = s.stopServe.refuseDigest job.request := by
  simp only [State.isolateServeSlot, serves, digest, Option.isSome_some, if_true]

theorem State.isolateServeSlot_serves :
    s.isolateServeSlot.ServesOnly fun r => r.digestRange = none := by
  cases serves : s.repair.serve with
  | none =>
    rw [s.isolateServeSlot_of_free serves]
    exact State.servesOnly_of_none serves
  | some job =>
    cases digest : job.request.digestRange with
    | none =>
      rw [s.isolateServeSlot_of_fetch serves digest]
      intro job' serves'
      obtain rfl := Option.some.inj (serves.symm.trans serves')
      exact digest
    | some range =>
      rw [s.isolateServeSlot_of_digest serves digest]
      exact State.refuseDigest_servesOnly (State.servesOnly_of_none (by simp)) _

/-- The DIGESTs of the serve queue are refused, the oldest first, and leave it. -/
theorem State.isolateServeQueue_eq :
    s.isolateServeQueue = s.repair.serveQueue.foldl State.refuseDigest
      (s.onRepair fun r =>
        { r with serveQueue := r.serveQueue.filter (·.digestRange.isNone) }) := by
  have skip : ∀ (l : List ServeRequest) (t : State),
      (l.filter (·.digestRange.isSome)).foldl State.refuseDigest t =
        l.foldl State.refuseDigest t := by
    intro l
    induction l with
    | nil => exact fun _ => rfl
    | cons r rest ih =>
      intro t
      cases digest : r.digestRange with
      | none =>
        rw [List.filter_cons_of_neg (by simp [digest]), List.foldl_cons,
          t.refuseDigest_of_fetch digest, ih]
      | some range =>
        rw [List.filter_cons_of_pos (by simp [digest]), List.foldl_cons, List.foldl_cons, ih]
  exact skip _ _

theorem State.isolateServeQueue_repair :
    s.isolateServeQueue.repair.fetch = s.repair.fetch ∧
    s.isolateServeQueue.repair.serveQueue =
      s.repair.serveQueue.filter (·.digestRange.isNone) := by
  have kept := foldl_keeps (fun s : State => (s.repair.fetch, s.repair.serveQueue))
    State.refuseDigest (fun s r => by simp) s.repair.serveQueue
    (s.onRepair fun r => { r with serveQueue := r.serveQueue.filter (·.digestRange.isNone) })
  rw [State.isolateServeQueue_eq]
  simpa using kept

theorem State.isolateServeQueue_servesOnly {s : State} {P : ServeRequest → Prop}
    (h : s.ServesOnly P) : s.isolateServeQueue.ServesOnly P := by
  have each : ∀ (l : List ServeRequest) (t : State), t.ServesOnly P →
      (l.foldl State.refuseDigest t).ServesOnly P := by
    intro l
    induction l with
    | nil => exact fun _ h => h
    | cons r rest ih => exact fun t h => ih _ (State.refuseDigest_servesOnly h r)
  rw [State.isolateServeQueue_eq]
  exact each _ (s.onRepair _) h

/-! ## The notice LISTENING (R160 to R162, R174) -/

theorem State.noticeListening_repair :
    s.noticeListening.repair.fetch = .idle ∧ s.noticeListening.repair.serveQueue = [] ∧
    s.noticeListening.repair.serve = none ∧ s.noticeListening.repair.cursor.state = .idle := by
  have free : s.endFetch.clearServe.repair.serve = none := by simp [State.clearServe]
  refine ⟨?_, ?_, State.serve_eq_none_iff.mpr
    (State.stopCursor_servesOnly (State.servesOnly_of_none free)), by
      simp [State.noticeListening]⟩
  · simp [State.noticeListening, State.clearServe]
  · simp [State.noticeListening, State.clearServe]

/-! ## The frame a cursor at rest places -/

/-- A frame that joins moves the cursor on only where the cursor waits to place it. -/
theorem State.place_cursor_of_ready {s : State} (ready : s.repair.cursor.work = .ready) (id : Nat)
    (f : Frame) : (s.place id f).repair.cursor = s.repair.cursor := by
  have joined : s.repair.cursor.joined id f = s.repair.cursor := if_neg (by simp [ready])
  unfold State.place
  repeat' split
  · exact joined
  · rfl
  · rfl

theorem State.startCursor_cursor (n : StationNo) :
    (s.startCursor n).repair.cursor.state = .digestSending ∧
    (s.startCursor n).repair.cursor.range = 0 ∧
    (s.startCursor n).repair.cursor.server = some n ∧
    (s.startCursor n).repair.cursor.attempt = 1 ∧
    (s.startCursor n).repair.cursor.tried = 0#8 := by
  unfold State.startCursor State.startDigest
  dsimp only [State.onCursor_repair]
  rw [State.place_cursor_of_ready rfl]
  exact ⟨rfl, rfl, rfl, rfl, rfl⟩

end

end Sys2Proof.Machine
end

section
/-! PROOF. The notice ISOLATED, the phase changes, the join test applied and the phase test, and the
expiries of the listen and silence windows (O47). -/

namespace Sys2Proof.Machine

/-! ## Folds over the entries that append to a log -/

/-- Entries that act each on itself alone, each adding to a log what its own entry says, add one
after the other. -/
theorem foldl_finRange_log {σ ε κ ρ : Type} {n : Nat} (f : σ → Fin n → σ) (entry : σ → Fin n → ε)
    (view : σ → κ) (log : σ → List ρ) (out : κ → Fin n → ε → List ρ)
    (logged : ∀ s i, log (f s i) = log s ++ out (view s) i (entry s i))
    (other : ∀ s i j, i ≠ j → entry (f s i) j = entry s j)
    (same : ∀ s i, view (f s i) = view s) (s : σ) :
    log ((List.finRange n).foldl f s) =
      log s ++ (List.finRange n).flatMap fun i => out (view s) i (entry s i) := by
  have each : ∀ (l : List (Fin n)) (t : σ), l.Nodup →
      log (l.foldl f t) = log t ++ l.flatMap fun i => out (view t) i (entry t i) := by
    intro l
    induction l with
    | nil => exact fun t _ => by simp
    | cons i rest ih =>
      intro t nodup
      obtain ⟨apart, nodup⟩ := List.nodup_cons.mp nodup
      have kept : (rest.flatMap fun j => out (view (f t i)) j (entry (f t i) j)) =
          rest.flatMap fun j => out (view t) j (entry t j) := by
        refine List.flatMap_congr fun j hj => ?_
        rw [same, other t i j (fun h => apart (h ▸ hj))]
      rw [List.foldl_cons, ih _ nodup, kept, logged, List.flatMap_cons, List.append_assoc]
  exact each _ s (List.nodup_finRange n)

theorem flatMap_ite_eq {α β : Type} (p : α → Bool) (g : α → β) (l : List α) :
    (l.flatMap fun i => if p i = true then [g i] else []) = (l.filter p).map g := by
  induction l with
  | nil => rfl
  | cons i rest ih =>
    rw [List.flatMap_cons, ih]
    by_cases h : p i = true
    · rw [if_pos h, List.filter_cons_of_pos h, List.map_cons, List.singleton_append]
    · rw [if_neg h, List.filter_cons_of_neg h, List.nil_append]

/-! ## The notice ISOLATED at the proposals and the reads (R134, R153) -/

section
variable (s : State)

/-- What the notice ISOLATED makes of a proposal. -/
def Proposal.isolated (p : Proposal) : Proposal :=
  if p.running = true then p.ended .noQuorum none else p

/-- What the notice ISOLATED makes of a read entry. -/
def ReadEntry.isolated (e : ReadEntry) : ReadEntry :=
  if e.collecting = true then e.ended .noQuorum else e

theorem State.proposal_isolateProposalAt (i j : Fin 8) :
    (s.isolateProposalAt i).proposal j =
      if i = j then (s.proposal i).isolated else s.proposal j := by
  unfold State.isolateProposalAt Proposal.isolated
  by_cases running : (s.proposal i).running = true
  · rw [if_pos running, State.proposal_finishProposal _ _ running]
  · rw [if_neg running, State.finishProposal_of_not_running _ _ (by simpa using running)]
    split
    · rename_i same
      rw [same]
    · rfl

theorem State.completions_isolateProposalAt (i : Fin 8) :
    (s.isolateProposalAt i).client.completions = s.client.completions ++
      if (s.proposal i).running = true then
        [.write (s.proposal i).tag .noQuorum (s.proposal i).version s.member.phase]
      else [] := by
  unfold State.isolateProposalAt
  by_cases running : (s.proposal i).running = true
  · rw [if_pos running, State.completions_finishProposal _ _ running]
    rfl
  · rw [if_neg running, State.finishProposal_of_not_running _ _ (by simpa using running),
      List.append_nil]

theorem State.readEntry_isolateReadAt (i j : Fin 4) :
    (s.isolateReadAt i).readEntry j =
      if i = j then (s.readEntry i).isolated else s.readEntry j := by
  unfold State.isolateReadAt ReadEntry.isolated
  dsimp only
  by_cases collecting : (s.readEntry i).collecting = true
  · rw [if_pos collecting, if_pos collecting,
      State.readEntry_finishRead _ _ _ (ReadEntry.running_of_collecting collecting)]
  · rw [if_neg collecting, if_neg collecting]
    split
    · rename_i same
      rw [same]
    · rfl

theorem State.completions_isolateReadAt (i : Fin 4) :
    (s.isolateReadAt i).client.completions = s.client.completions ++
      if (s.readEntry i).collecting = true then
        [.read (s.readEntry i).tag .noQuorum (s.readEntry i).bestVersion s.member.phase Data.zero]
      else [] := by
  unfold State.isolateReadAt
  dsimp only
  by_cases collecting : (s.readEntry i).collecting = true
  · rw [if_pos collecting, if_pos collecting,
      State.completions_finishRead _ _ _ (ReadEntry.running_of_collecting collecting)]
  · rw [if_neg collecting, if_neg collecting, List.append_nil]

/-- The proposals take the notice ISOLATED. -/
def State.isolateProposals : State := (List.finRange 8).foldl State.isolateProposalAt s

theorem State.isolateProposals_keeps :
    s.isolateProposals.control = s.control ∧ s.isolateProposals.member = s.member ∧
    s.isolateProposals.store = s.store ∧ s.isolateProposals.reads = s.reads ∧
    s.isolateProposals.repair.fetch = s.repair.fetch ∧
    s.isolateProposals.repair.serveQueue = s.repair.serveQueue := by
  have kept := foldl_keeps (fun s : State => (s.control, s.member, s.store, s.reads,
      s.repair.fetch, s.repair.serveQueue))
    State.isolateProposalAt (fun s i => by simp [State.isolateProposalAt]) (List.finRange 8) s
  simp only [Prod.mk.injEq] at kept
  unfold State.isolateProposals
  exact kept

theorem State.proposal_isolateProposals (i : Fin 8) :
    s.isolateProposals.proposal i = (s.proposal i).isolated :=
  foldl_finRange_get State.isolateProposalAt State.proposal (fun _ => ()) (fun _ _ p => p.isolated)
    (fun s i => (s.proposal_isolateProposalAt i i).trans (if_pos rfl))
    (fun s i j apart => (s.proposal_isolateProposalAt i j).trans (if_neg apart))
    (fun _ _ => rfl) s i

theorem State.completions_isolateProposals :
    s.isolateProposals.client.completions = s.client.completions ++
      ((List.finRange 8).filter fun i => (s.proposal i).running).map fun i =>
        .write (s.proposal i).tag .noQuorum (s.proposal i).version s.member.phase := by
  have logged := foldl_finRange_log State.isolateProposalAt State.proposal
    (fun s => s.member.phase) (fun s => s.client.completions)
    (fun phase _ p => if p.running = true then [.write p.tag .noQuorum p.version phase] else [])
    (fun s i => s.completions_isolateProposalAt i)
    (fun s i j apart => (s.proposal_isolateProposalAt i j).trans (if_neg apart))
    (fun s i => by simp) s
  unfold State.isolateProposals
  rw [logged, flatMap_ite_eq (fun i => (s.proposal i).running)]

theorem State.isolateReads_keeps_repair :
    s.isolateReads.repair.fetch = s.repair.fetch ∧
    s.isolateReads.repair.serveQueue = s.repair.serveQueue := by
  have kept := foldl_keeps (fun s : State => (s.repair.fetch, s.repair.serveQueue))
    State.isolateReadAt (fun s i => by
      unfold State.isolateReadAt
      dsimp only
      split <;> simp) (List.finRange 4) s
  simp only [Prod.mk.injEq] at kept
  unfold State.isolateReads
  exact kept

theorem State.readEntry_isolateReads (i : Fin 4) :
    s.isolateReads.readEntry i = (s.readEntry i).isolated :=
  foldl_finRange_get State.isolateReadAt State.readEntry (fun _ => ()) (fun _ _ e => e.isolated)
    (fun s i => (s.readEntry_isolateReadAt i i).trans (if_pos rfl))
    (fun s i j apart => (s.readEntry_isolateReadAt i j).trans (if_neg apart))
    (fun _ _ => rfl) s i

theorem State.completions_isolateReads :
    s.isolateReads.client.completions = s.client.completions ++
      ((List.finRange 4).filter fun i => (s.readEntry i).collecting).map fun i =>
        .read (s.readEntry i).tag .noQuorum (s.readEntry i).bestVersion s.member.phase
          Data.zero := by
  have logged := foldl_finRange_log State.isolateReadAt State.readEntry
    (fun s => s.member.phase) (fun s => s.client.completions)
    (fun phase _ e => if e.collecting = true then
      [.read e.tag .noQuorum e.bestVersion phase Data.zero] else [])
    (fun s i => s.completions_isolateReadAt i)
    (fun s i j apart => (s.readEntry_isolateReadAt i j).trans (if_neg apart))
    (fun s i => by simp) s
  unfold State.isolateReads
  rw [logged, flatMap_ite_eq (fun i => (s.readEntry i).collecting)]

theorem State.noticeIsolated_eq :
    s.noticeIsolated =
      s.isolateProposals.isolateReads.isolateServeSlot.isolateServeQueue.stopCursor := rfl

theorem State.proposal_noticeIsolated (i : Fin 8) :
    s.noticeIsolated.proposal i = (s.proposal i).isolated := by
  rw [← State.proposal_isolateProposals]
  exact State.proposal_of (by simp [State.noticeIsolated_eq]) i

theorem State.readEntry_noticeIsolated (i : Fin 4) :
    s.noticeIsolated.readEntry i = (s.readEntry i).isolated := by
  have before : s.isolateProposals.readEntry i = s.readEntry i :=
    State.readEntry_of (by simp [State.isolateProposals_keeps]) i
  rw [← before, ← State.readEntry_isolateReads]
  exact State.readEntry_of (by simp [State.noticeIsolated_eq]) i

theorem State.completions_noticeIsolated :
    s.noticeIsolated.client.completions = s.client.completions ++
      ((List.finRange 8).filter fun i => (s.proposal i).running).map (fun i =>
        .write (s.proposal i).tag .noQuorum (s.proposal i).version s.member.phase) ++
      ((List.finRange 4).filter fun i => (s.readEntry i).collecting).map (fun i =>
        .read (s.readEntry i).tag .noQuorum (s.readEntry i).bestVersion s.member.phase
          Data.zero) := by
  obtain ⟨-, member, -, reads, -, -⟩ := s.isolateProposals_keeps
  have entries : ∀ i, s.isolateProposals.readEntry i = s.readEntry i := State.readEntry_of reads
  have last : s.noticeIsolated.client = s.isolateProposals.isolateReads.client := by
    simp [State.noticeIsolated_eq]
  rw [last, State.completions_isolateReads, State.completions_isolateProposals, member]
  simp only [entries]

theorem State.noticeIsolated_repair :
    s.noticeIsolated.repair.serveQueue =
      s.repair.serveQueue.filter (·.digestRange.isNone) ∧
    (s.noticeIsolated.ServesOnly fun r => r.digestRange = none) ∧
    s.noticeIsolated.repair.cursor.state = .idle := by
  rw [State.noticeIsolated_eq]
  refine ⟨?_, ?_, State.stopCursor_cursor _⟩
  · rw [(State.stopCursor_keeps_repair _).2,
      (State.isolateServeQueue_repair _).2, (State.isolateServeSlot_keeps_repair _).2,
      (State.isolateReads_keeps_repair _).2]
    simp [State.isolateProposals_keeps]
  · exact State.stopCursor_servesOnly
      (State.isolateServeQueue_servesOnly (State.isolateServeSlot_serves _))

end

end Sys2Proof.Machine
end

section
/-! PROOF. The phase changes, the join test applied, the phase test, and the expiries of the listen
and silence windows (O47). -/

namespace Sys2Proof.Machine

/-! ## The phase changes (R107) -/

section
variable (s : State) (p : RunPhase)

/-- The station as the units are told of a phase change. -/
def State.shown : State :=
  ((s.onMember fun m => { m with phase := phaseOf p }).showOwn p).raise .phase .none
    (.phase (phaseOf p))

theorem State.enterPhase_eq : s.enterPhase p = (s.shown p).notice p := rfl

theorem State.shown_keeps :
    (s.shown p).store = s.store ∧ (s.shown p).writes = s.writes ∧ (s.shown p).reads = s.reads ∧
    (s.shown p).repair = s.repair ∧ (s.shown p).media = s.media ∧
    (s.shown p).member.phase = phaseOf p ∧
    (s.shown p).member.listenWindow = s.member.listenWindow ∧
    (s.shown p).client = s.client.raise .phase .none (.phase (phaseOf p)) :=
  ⟨rfl, rfl, rfl, rfl, rfl, rfl, rfl, rfl⟩

theorem State.enterPhase_events :
    (s.enterPhase p).client.events =
      (s.client.raise .phase .none (.phase (phaseOf p))).events := by
  rw [State.enterPhase_eq]
  simp [State.shown_keeps]

/-- A phase change but to ISOLATED leaves the proposals and the reads alone. -/
theorem State.enterPhase_of_not_isolated (other : p ≠ .isolated) :
    (s.enterPhase p).writes = s.writes ∧ (s.enterPhase p).reads = s.reads ∧
    (s.enterPhase p).client = s.client.raise .phase .none (.phase (phaseOf p)) := by
  rw [State.enterPhase_eq]
  cases p with
  | isolated => exact absurd rfl other
  | listening | catchingUp | online => simp [State.notice, State.shown_keeps]

/-- A phase change but to CATCHING_UP stops the cursor (R174). -/
theorem State.enterPhase_stops_cursor (other : p ≠ .catchingUp) :
    (s.enterPhase p).repair.cursor.state = .idle := by
  rw [State.enterPhase_eq]
  cases p with
  | catchingUp => exact absurd rfl other
  | listening =>
    obtain ⟨-, -, -, idle⟩ := (s.shown .listening).noticeListening_repair
    exact idle
  | online => exact (s.shown .online).stopCursor_cursor
  | isolated =>
    have told : (s.shown .isolated).notice .isolated = (s.shown .isolated).noticeIsolated := rfl
    obtain ⟨-, -, idle⟩ := (s.shown .isolated).noticeIsolated_repair
    rw [told, idle]

theorem State.enterPhase_listening_repair :
    (s.enterPhase .listening).repair.fetch = .idle ∧
    (s.enterPhase .listening).repair.serveQueue = [] ∧
    (s.enterPhase .listening).repair.serve = none := by
  obtain ⟨fetch, queue, serve, -⟩ := (s.shown .listening).noticeListening_repair
  exact ⟨fetch, queue, serve⟩

theorem State.enterPhase_isolated_spec :
    let t := s.enterPhase .isolated
    (∀ i, t.proposal i = (s.proposal i).isolated) ∧
    (∀ i, t.readEntry i = (s.readEntry i).isolated) ∧
    t.client.completions = s.client.completions ++
      ((List.finRange 8).filter fun i => (s.proposal i).running).map (fun i =>
        .write (s.proposal i).tag .noQuorum (s.proposal i).version .isolated) ++
      ((List.finRange 4).filter fun i => (s.readEntry i).collecting).map (fun i =>
        .read (s.readEntry i).tag .noQuorum (s.readEntry i).bestVersion .isolated Data.zero) ∧
    t.repair.serveQueue = s.repair.serveQueue.filter (·.digestRange.isNone) ∧
    ∀ job, t.repair.serve = some job → job.request.digestRange = none := by
  obtain ⟨queue, serves, -⟩ := (s.shown .isolated).noticeIsolated_repair
  have proposals : ∀ i, (s.shown .isolated).proposal i = s.proposal i := fun _ => rfl
  have entries : ∀ i, (s.shown .isolated).readEntry i = s.readEntry i := fun _ => rfl
  have completions := (s.shown .isolated).completions_noticeIsolated
  have before : (s.shown .isolated).client.completions = s.client.completions := by
    simp [State.shown_keeps]
  have phase : (s.shown .isolated).member.phase = .isolated := rfl
  simp only [proposals, entries, before, phase] at completions
  have told : s.enterPhase .isolated = (s.shown .isolated).noticeIsolated := rfl
  dsimp only
  rw [told]
  exact ⟨fun i => (s.shown .isolated).proposal_noticeIsolated i,
    fun i => (s.shown .isolated).readEntry_noticeIsolated i, completions, queue, serves⟩

theorem Proposal.isolated_spec (p : Proposal) :
    (p.running = true → p.isolated.state = .finished ∧ p.isolated.result = some .noQuorum) ∧
      (p.running = false → p.isolated = p) := by
  refine ⟨fun running => ?_, fun ended => if_neg (by simp [ended])⟩
  rw [Proposal.isolated, if_pos running]
  exact ⟨rfl, rfl⟩

theorem ReadEntry.collecting_iff (e : ReadEntry) :
    e.collecting = true ↔ e.state = .querySending ∨ e.state = .queryAwaiting := by
  simp [ReadEntry.collecting]

theorem ReadEntry.isolated_spec (e : ReadEntry) :
    (e.state = .querySending ∨ e.state = .queryAwaiting →
        e.isolated.state = .finished ∧ e.isolated.result = some .noQuorum) ∧
      (¬ (e.state = .querySending ∨ e.state = .queryAwaiting) → e.isolated = e) := by
  rw [← ReadEntry.collecting_iff]
  refine ⟨fun collecting => ?_, fun other => if_neg other⟩
  rw [ReadEntry.isolated, if_pos collecting]
  exact ⟨rfl, rfl⟩

theorem State.isolateReadAt_eq :
    State.isolateReadAt = fun u i =>
      if (u.readEntry i).state = .querySending ∨ (u.readEntry i).state = .queryAwaiting then
        u.finishRead i .noQuorum (u.readEntry i).bestVersion Data.zero
      else u := by
  funext u i
  simp only [State.isolateReadAt, ReadEntry.collecting_iff]

end

/-! ## The join test applied, and the phase test (R106, R110 to R115) -/

section
variable {s : State}

theorem State.applyJoin_of_stay (origin : CatchUpOrigin) (h : s.joinTest = .stay) :
    s.applyJoin origin = s := by
  simp only [State.applyJoin, h]

theorem State.applyJoin_of_found (origin : CatchUpOrigin) (h : s.joinTest = .found) :
    s.applyJoin origin = s.enterPhase .online := by
  simp only [State.applyJoin, h]

theorem State.applyJoin_of_catchUp (origin : CatchUpOrigin) {n : StationNo}
    (h : s.joinTest = .catchUp n) :
    s.applyJoin origin =
      ((s.onMember fun m => { m with origin := some origin }).startCursor n).enterPhase
        .catchingUp := by
  simp only [State.applyJoin, h]

/-- Founding from LISTENING (R110). -/
theorem State.enterPhase_online_spec (s : State) :
    (s.enterPhase .online).member.phase = .online ∧
    ((s.enterPhase .online).peer s.own).state = .present ∧
    ((s.enterPhase .online).peer s.own).reported = some .online ∧
    (s.enterPhase .online).client = s.client.raise .phase .none (.phase .online) ∧
    (s.enterPhase .online).store = s.store ∧ (s.enterPhase .online).writes = s.writes ∧
    (s.enterPhase .online).reads = s.reads ∧
    (s.enterPhase .online).media.port = s.media.port := by
  obtain ⟨writes, reads, client⟩ := s.enterPhase_of_not_isolated .online (by simp)
  refine ⟨s.enterPhase_phase .online, ?_, ?_, client, by simp, writes, reads, by simp⟩
  · rw [State.enterPhase_own]
  · rw [State.enterPhase_own]

theorem State.noServer_iff :
    (∀ n : StationNo,
      ¬ (n ≠ s.own ∧ (s.peer n).state = .present ∧ (s.peer n).reported = some .online)) ↔
      s.onlinePeer = none := by
  simp only [← State.peerReports_iff]
  exact s.onlinePeer_eq_none_iff.symm

/-- A station whose catch-up is abandoned, before its phase changes (R113). -/
def State.uncaught (s : State) : State :=
  s.stopCursor.onMember fun m => { m with origin := none }

theorem State.abandonCatchUp_of_isolated (origin : s.member.origin = some .isolated) :
    s.abandonCatchUp =
      if (s.uncaught.enterPhase .isolated).quorum ≤ (s.uncaught.enterPhase .isolated).visible then
        (s.uncaught.enterPhase .isolated).applyJoin .isolated
      else s.uncaught.enterPhase .isolated := by
  simp only [State.abandonCatchUp, origin]
  rfl

theorem State.abandonCatchUp_of_listening (origin : s.member.origin ≠ some .isolated) :
    s.abandonCatchUp = (s.uncaught.enterPhase .listening).applyJoin .listening := by
  unfold State.abandonCatchUp
  dsimp only
  split
  · contradiction
  · rfl

end

/-! ## The expiries (R105, R108) -/

section
variable {s : State}

/-- A station of LISTENING at the end of its listen window. -/
def State.listened (s : State) : State := s.onMember fun m => { m with listenWindow := none }

theorem State.joinTest_listened (s : State) : s.listened.joinTest = s.joinTest := rfl

theorem exec_listenWindowExpiry_of_due (live : s.live = true)
    (window : s.member.listenWindow = some 0) (listening : s.member.phase = .listening) :
    exec .listenWindowExpiry s = .next (s.listened.applyJoin .listening).settle := by
  have due : s.member.listenWindow.due = true := by simp [Window.due, window]
  refine congrArg Host.Outcome.next ((State.expire_of_due _ live due).trans ?_)
  exact congrArg State.settle (if_pos listening)

theorem exec_silenceWindowExpiry_of_due {n : StationNo} (live : s.live = true)
    (window : (s.peer n).silence = some 0) :
    exec (.silenceWindowExpiry n) s = .next (s.fallSilent n).settle := by
  have due : (s.peer n).silence.due = true := by simp [Window.due, window]
  exact congrArg Host.Outcome.next (State.expire_of_due _ live due)

end

/-- The first clauses of O47: LISTEN_WINDOW_EXPIRY by the result of the join test. -/
theorem exec_listenWindowExpiry_spec (s : State) (live : s.live = true)
    (window : s.member.listenWindow = some 0) (listening : s.member.phase = .listening) :
    let f := { s with member := { s.member with listenWindow := none } }
    (s.joinTest = .stay → exec .listenWindowExpiry s = .next f.settle) ∧
    (s.joinTest = .found → ∃ u : State, exec .listenWindowExpiry s = .next u.settle ∧
      u.member.phase = .online ∧ u.member.listenWindow = none ∧
      (u.peer s.own).state = .present ∧ (u.peer s.own).reported = some .online ∧
      u.client = s.client.raise .phase .none (.phase .online) ∧ u.store = s.store ∧
      u.writes = s.writes ∧ u.reads = s.reads ∧ u.media.port = s.media.port) ∧
    (∀ n, s.joinTest = .catchUp n → ∃ u : State, exec .listenWindowExpiry s = .next u.settle ∧
      u.member.phase = .catchingUp ∧ u.member.origin = some .listening ∧
      u.member.listenWindow = none ∧ (u.peer s.own).reported = some .catchingUp ∧
      u.repair.cursor.state = .digestSending ∧ u.repair.cursor.range = 0 ∧
      u.repair.cursor.server = some n ∧ u.repair.cursor.attempt = 1 ∧
      u.repair.cursor.tried = 0#8 ∧
      u.client = s.client.raise .phase .none (.phase .catchingUp) ∧ u.store = s.store ∧
      u.writes = s.writes ∧ u.reads = s.reads ∧ u.media = s.media) := by
  rw [exec_listenWindowExpiry_of_due live window listening]
  refine ⟨fun stay => ?_, fun found => ?_, fun n server => ?_⟩
  · rw [State.applyJoin_of_stay (s := s.listened) _ stay]
    rfl
  · rw [State.applyJoin_of_found (s := s.listened) _ found]
    obtain ⟨phase, present, reported, client, store, writes, reads, port⟩ :=
      s.listened.enterPhase_online_spec
    exact ⟨_, rfl, phase, by simp [State.listened], present, reported, client, store, writes,
      reads, port⟩
  · rw [State.applyJoin_of_catchUp (s := s.listened) _ server]
    obtain ⟨state, range, chosen, attempt, tried⟩ :=
      (s.listened.onMember fun m => { m with origin := some .listening }).startCursor_cursor n
    have own : ((s.listened.onMember fun m =>
        { m with origin := some .listening }).startCursor n).own = s.own :=
      State.own_of (by simp [State.listened])
    refine ⟨_, rfl, State.enterPhase_phase _ _, ?_, ?_, ?_, state, range, chosen, attempt, tried,
      ?_, ?_, ?_, ?_, ?_⟩
    · simp
    · simp [State.listened]
    · rw [← own, State.enterPhase_own]
    · rw [(State.enterPhase_of_not_isolated _ _ (by simp)).2.2]
      simp [State.listened]
      rfl
    · simp [State.listened]
    · rw [(State.enterPhase_of_not_isolated _ _ (by simp)).1]
      simp [State.listened]
    · rw [(State.enterPhase_of_not_isolated _ _ (by simp)).2.1]
      simp [State.listened]
    · simp [State.enterPhase_eq, State.notice, State.shown_keeps, State.listened]

/-- Settles O47, clause by clause: the two expiries, the phase test, the join test applied, the
serve slot and queue in ISOLATED, and the phase changes with their notices. -/
theorem listenAndSilenceExpire : Obligations.ListenAndSilenceExpire := by
  refine ⟨exec_listenWindowExpiry_spec, ?_, ?_, ?_, ?_, ?_, ?_⟩
  · intro n s live window told
    rw [exec_silenceWindowExpiry_of_due live window]
    refine ⟨fun present => ?_, fun absent => ?_⟩
    · exact congrArg (fun t => Host.Outcome.next (State.settle t)) (if_pos present)
    · exact congrArg (fun t => Host.Outcome.next (State.settle t)) (if_neg absent)
  · intro s
    dsimp only
    rw [State.noServer_iff]
    refine ⟨fun phase => ⟨fun ended => ?_, fun runs => ?_⟩, fun phase => ⟨fun alone => ?_,
      fun served => ?_⟩, fun phase => ⟨fun short => ?_, fun quorum => ?_⟩,
      fun phase => ⟨fun quorum => ?_, fun short => ?_⟩, fun phase => ?_, ?_, ?_⟩
    · simp only [State.phaseTest, phase, ended, if_true]
    · simp only [State.phaseTest, phase, runs, if_false]
    · simp only [State.phaseTest, phase, alone, if_true]
    · simp only [State.phaseTest, phase, served, if_false]
    · simp only [State.phaseTest, phase, short, if_true]
    · simp only [State.phaseTest, phase, Nat.not_lt.mpr quorum, if_false]
    · simp only [State.phaseTest, phase, quorum, if_true]
    · simp only [State.phaseTest, phase, Nat.not_le.mpr short, if_false]
    · rcases phase with phase | phase <;> simp only [State.phaseTest, phase]
    all_goals
      have stopped : ({ s.stopCursor with member := { s.member with origin := none } } : State) =
          s.uncaught := by
        have member : s.stopCursor.member = s.member := by simp
        rw [← member]
        rfl
      rw [stopped]
    · intro origin
      rw [State.abandonCatchUp_of_isolated origin]
      exact ⟨fun quorum => if_pos quorum, fun short => if_neg (Nat.not_le.mpr short)⟩
    · exact State.abandonCatchUp_of_listening
  · exact fun origin s => ⟨State.applyJoin_of_stay origin, State.applyJoin_of_found origin,
      fun n => State.applyJoin_of_catchUp origin⟩
  · intro s refused
    have refuses : ∀ u r, State.refuseDigest u r = refused u r := State.refuseDigest_eq
    refine ⟨s.isolateServeSlot_of_free, fun job serves => ⟨fun b fetch => ?_,
      fun range versions digest => ?_⟩, ?_⟩
    · exact s.isolateServeSlot_of_fetch serves (ServeRequest.digestRange_of_fetch fetch)
    · rw [s.isolateServeSlot_of_digest serves (ServeRequest.digestRange_of_digest digest), refuses]
    · rw [State.isolateServeQueue_eq]
      exact congrArg (fun f => List.foldl f _ _) (funext fun u => funext fun r => refuses u r)
  · intro s told proposals reads
    have shown : told = s.shown .isolated := rfl
    have first : proposals = told.isolateProposals := rfl
    have second : reads = proposals.isolateReads := by
      rw [State.isolateReads, State.isolateReadAt_eq]
    rw [second, first, shown]
    rfl
  · intro p s
    dsimp only
    refine ⟨s.enterPhase_phase p, ?_, ?_, fun n => s.enterPhase_peer p n, by simp,
      s.enterPhase_events p, fun other => ?_, s.enterPhase_stops_cursor p, ?_, ?_⟩
    · rw [State.enterPhase_own]
    · rw [State.enterPhase_own]
    · obtain ⟨writes, reads, client⟩ := s.enterPhase_of_not_isolated p other
      exact ⟨writes, reads, (congrArg ClientPort.completions client).trans (by simp)⟩
    · rintro rfl
      exact s.enterPhase_listening_repair
    · rintro rfl
      obtain ⟨proposals, entries, completions, queue, serves⟩ := s.enterPhase_isolated_spec
      refine ⟨fun i => ?_, fun i => ?_, completions, queue, serves⟩
      · rw [proposals]
        exact (s.proposal i).isolated_spec
      · rw [entries]
        exact (s.readEntry i).isolated_spec

end Sys2Proof.Machine
end

section
/-! PROOF. The expiries of the reads and of the fetch slot (O49, O50). -/

namespace Sys2Proof.Machine

/-! ## The query window of a read (R149) -/

section
variable {s : State} {i : Fin 4}

/-- Of two writes to one entry of the read table the later one stands. -/
theorem State.setRead_setRead (s : State) (i : Fin 4) (e x : ReadEntry) :
    (s.setRead i e).setRead i x = s.setRead i x := by
  simp [State.setRead, State.onReads]

@[simp] theorem State.readEntry_setRead_self (s : State) (i : Fin 4) (e : ReadEntry) :
    (s.setRead i e).readEntry i = e := by
  rw [State.readEntry_setRead, if_pos rfl]

/-- The QUERY of an entry just written is built from what was written there (R147). -/
theorem State.sendQuery_setRead (s : State) (i : Fin 4) (e : ReadEntry) :
    (s.setRead i e).sendQuery i =
      (s.setRead i { e with
          state := .querySending, frames := e.frames ++ [s.line.nextId] }).bumpId.place
        s.line.nextId (s.build none (.query (BitVec.ofNat 16 e.block) (byteOf e.attempt) e.wanted)) := by
  have station : (s.setRead i e).build = s.build := rfl
  simp only [State.sendQuery, State.readEntry_setRead_self, State.setRead_setRead, station,
    State.setRead_line]

theorem State.queryExpired_of_attempts_left (h : (s.readEntry i).attempt < 4) :
    s.queryExpired i = (s.setRead i { s.readEntry i with
      attempt := (s.readEntry i).attempt + 1, queryWindow := none }).sendQuery i := if_pos h

theorem State.queryExpired_of_last_attempt (h : 4 ≤ (s.readEntry i).attempt) :
    s.queryExpired i = s.finishRead i .noQuorum (s.readEntry i).bestVersion Data.zero :=
  if_neg (Nat.not_lt.mpr h)

theorem exec_queryWindowExpiry_of_due (live : s.live = true)
    (state : (s.readEntry i).state = .queryAwaiting)
    (window : (s.readEntry i).queryWindow = some 0) :
    exec (.queryWindowExpiry i) s = .next (s.queryExpired i).settle := by
  have due : ((s.readEntry i).queryWindow.due &&
      decide ((s.readEntry i).state = .queryAwaiting)) = true := by
    simp [Window.due, state, window]
  exact congrArg Host.Outcome.next (State.expire_of_due _ live due)

/-! ## The fetch window and the back-off of a read (R152) -/

theorem exec_fetchWindowExpiry_of_due (live : s.live = true)
    (state : (s.readEntry i).state = .fetchAwaiting)
    (window : (s.readEntry i).fetchWindow = some 0) :
    exec (.fetchWindowExpiry i) s = .next (s.giveUpTarget i).settle := by
  have due : ((s.readEntry i).fetchWindow.due &&
      decide ((s.readEntry i).state = .fetchAwaiting)) = true := by
    simp [Window.due, state, window]
  exact congrArg Host.Outcome.next (State.expire_of_due _ live due)

theorem exec_readBackOffExpiry_of_due (live : s.live = true)
    (backOff : (s.readEntry i).backOff = some 0) :
    exec (.readBackOffExpiry i) s = .next (s.readBackOffEnded i).settle := by
  have due : (s.readEntry i).backOff.due = true := by simp [Window.due, backOff]
  exact congrArg Host.Outcome.next (State.expire_of_due _ live due)

theorem State.pickTarget_of {t : State} (control : t.control = s.control)
    (member : t.member = s.member) (candidates : List StationNo) (tried : StationSet) :
    t.pickTarget candidates tried = s.pickTarget candidates tried := by
  have present : ∀ n, t.presentPeer n = s.presentPeer n := fun n => by
    simp only [State.presentPeer, State.own_of control, State.peer_of member]
  induction candidates generalizing tried with
  | nil => rfl
  | cons n rest ih => simp only [State.pickTarget, present, ih]

/-- The FETCH of an entry just written is built from what was written there (R152). -/
theorem State.sendReadFetch_setRead (s : State) (i : Fin 4) (e : ReadEntry) (n : StationNo) :
    (s.setRead i e).sendReadFetch i n =
      (s.setRead i { e with frames := e.frames ++ [s.line.nextId] }).bumpId.place s.line.nextId
        (s.build (some n) (.fetch (BitVec.ofNat 16 e.block))) := by
  have station : (s.setRead i e).build = s.build := rfl
  simp only [State.sendReadFetch, State.readEntry_setRead_self, State.setRead_setRead, station,
    State.setRead_line]

theorem State.nextTarget_of_some {n : StationNo} {tried : StationSet}
    (picked : s.pickTarget (s.readEntry i).candidates (s.readEntry i).tried = (tried, some n)) :
    s.nextTarget i =
      (s.setRead i { s.readEntry i with
        state := .fetchSending, tried := tried, target := some n }).sendReadFetch i n := by
  simp only [State.nextTarget, picked]

theorem State.nextTarget_of_none {tried : StationSet}
    (picked : s.pickTarget (s.readEntry i).candidates (s.readEntry i).tried = (tried, none)) :
    s.nextTarget i =
      (s.setRead i { s.readEntry i with tried := tried }).finishRead i .noQuorum
        (s.readEntry i).bestVersion Data.zero := by
  simp only [State.nextTarget, picked]

theorem State.waits_iff (ids : List Nat) :
    s.waits ids = true ↔ ∃ w, w ∈ s.line.waiting ∧ w.id ∈ ids := by
  simp [State.waits]

end

/-- Settles O49: the query window by the attempts left, the fetch window by the next target, the
back-off by what the read still asks. -/
theorem readWindowsExpire : Obligations.ReadWindowsExpire := by
  refine ⟨fun i s live state window => ?_, ?_, ?_⟩
  · rw [exec_queryWindowExpiry_of_due live state window]
    refine ⟨fun left => ?_, fun last => ?_⟩
    · rw [State.queryExpired_of_attempts_left left, State.sendQuery_setRead]
      rfl
    · rw [State.queryExpired_of_last_attempt last]
  · intro i s live state window e tried u
    have entry : u.readEntry i = { e with
        tried := tried, fetchWindow := none, backOff := none, frames := [] } := by
      have kept : u.reads = (s.setRead i { e with
          tried := tried, fetchWindow := none, backOff := none, frames := [] }).reads := by
        simp [u]
      rw [State.readEntry_of kept, State.readEntry_setRead_self]
    have picks : u.pickTarget (u.readEntry i).candidates (u.readEntry i).tried =
        s.pickTarget e.candidates tried := by
      rw [State.pickTarget_of (s := s) (by simp [u]) (by simp [u]), entry]
    have own : u.own = s.own := State.own_of (by simp [u])
    have gives : s.giveUpTarget i = u.nextTarget i := rfl
    rw [exec_fetchWindowExpiry_of_due live state window, gives]
    refine ⟨fun n tried' picked => ?_, fun tried' picked => ?_⟩
    · rw [State.nextTarget_of_some (picks.trans picked), State.sendReadFetch_setRead, State.build,
        own, entry]
      rfl
    · rw [State.nextTarget_of_none (picks.trans picked), entry]
      rfl
  · intro i s live backOff e id waits
    rw [exec_readBackOffExpiry_of_due live backOff]
    refine ⟨fun n runs target none => ?_, fun idle => ?_⟩
    · obtain ⟨w, window⟩ := Option.ne_none_iff_exists'.mp runs
      have ended : s.readBackOffEnded i =
          (s.setRead i { e with backOff := .none }).sendReadFetch i n := by
        simp only [State.readBackOffEnded, e] at window target ⊢
        rw [window, target]
        exact if_neg (mt (State.waits_iff _).mp none)
      rw [ended, State.sendReadFetch_setRead]
      rfl
    · refine congrArg (fun t => Host.Outcome.next (State.settle t)) ?_
      unfold State.readBackOffEnded
      dsimp only
      split
      · rename_i window _
        have waiting := idle.resolve_left (by simp [e, window])
        exact if_pos ((State.waits_iff _).mpr waiting)
      · rfl

/-! ## The fetch slot (R157 to R159) -/

section
variable {s : State} {b : Nat}

/-- The slot as it takes a block, before it has chosen a target (R157). -/
def State.slotTakes (s : State) (b : Nat) : State :=
  s.onFetch fun _ => { FetchSlot.idle with block := some b }

theorem State.fetchStep_of_head {rest : List Nat} (idle : s.repair.fetch.state = .idle)
    (listed : s.repair.list = b :: rest) :
    s.fetchStep = some ((s.slotTakes b).chooseFetchTarget b) := by
  have works : s.repair.fetch.state = .idle ∧ s.repair.list ≠ [] := ⟨idle, by simp [listed]⟩
  refine (if_pos works).trans ?_
  simp only [State.takeRepairHead, listed]
  rfl

theorem exec_fetchSlotWindowExpiry_of_due (live : s.live = true)
    (window : s.repair.fetch.window = some 0) :
    exec .fetchSlotWindowExpiry s = .next s.giveUpFetch.settle := by
  have due : s.repair.fetch.window.due = true := by simp [Window.due, window]
  exact congrArg Host.Outcome.next (State.expire_of_due _ live due)

theorem exec_fetchSlotBackOffExpiry_of_due (live : s.live = true)
    (backOff : s.repair.fetch.backOff = some 0) :
    exec .fetchSlotBackOffExpiry s = .next s.slotBackOffEnded.settle := by
  have due : s.repair.fetch.backOff.due = true := by simp [Window.due, backOff]
  exact congrArg Host.Outcome.next (State.expire_of_due _ live due)

theorem State.slotBackOffEnded_of_peerWait (block : s.repair.fetch.block = some b)
    (state : s.repair.fetch.state = .peerWait) :
    s.slotBackOffEnded = (s.onFetch fun f => { f with backOff := none }).chooseFetchTarget b := by
  simp only [State.slotBackOffEnded, block, state]

theorem State.slotBackOffEnded_of_backOff {n : StationNo} (block : s.repair.fetch.block = some b)
    (state : s.repair.fetch.state = .backOff) (target : s.repair.fetch.target = some n) :
    s.slotBackOffEnded =
      ((s.onFetch fun f => { f with backOff := none }).onFetch fun f =>
        { f with state := .fetchSending }).sendSlotFetch n b := by
  simp only [State.slotBackOffEnded, block, state, target]

theorem State.slotBackOffEnded_of_awaiting {n : StationNo}
    (block : s.repair.fetch.block = some b) (state : s.repair.fetch.state = .fetchAwaiting)
    (target : s.repair.fetch.target = some n) :
    s.slotBackOffEnded =
      if s.repair.fetch.window.isSome && !s.waits s.repair.fetch.frames then
        (s.onFetch fun f => { f with backOff := none }).sendSlotFetch n b
      else s.onFetch fun f => { f with backOff := none } := by
  simp only [State.slotBackOffEnded, block, state, target]

theorem State.slotBackOffEnded_of_no_target (block : s.repair.fetch.block = some b)
    (state : s.repair.fetch.state = .fetchAwaiting) (target : s.repair.fetch.target = none) :
    s.slotBackOffEnded = s.onFetch fun f => { f with backOff := none } := by
  simp only [State.slotBackOffEnded, block, state, target]

theorem hasStation_zero (n : StationNo) : hasStation 0#8 n = false := by
  simp [hasStation]

theorem addStation_ne_zero (set : StationSet) (n : StationNo) : addStation set n ≠ 0#8 := by
  intro zero
  have member := (hasStation_addStation set n n).mpr (.inr rfl)
  simp [zero, hasStation_zero] at member

/-- The eligible peers of a station whose slot has tried the stations given. -/
theorem State.fetchEligible_of {t : State} {tried : StationSet} (control : t.control = s.control)
    (member : t.member = s.member) (slot : t.repair.fetch.tried = tried) (k : StationNo) :
    t.fetchEligible k = true ↔ k ≠ s.own ∧ (s.peer k).state = .present ∧
      ((s.peer k).reported = some .catchingUp ∨ (s.peer k).reported = some .online ∨
        (s.peer k).reported = some .isolated) ∧ hasStation tried k = false := by
  rw [State.fetchEligible_iff, State.own_of control, State.peer_of member, slot]

end

/-- Settles O50: the slot at rest, its window and its back-off, each by the peers it may ask. -/
theorem fetchSlotWindowsExpire : Obligations.FetchSlotWindowsExpire := by
  refine ⟨?_, ?_, ?_⟩
  · intro s able id
    refine ⟨fun idle => if_neg ?_, fun b rest idle listed => ?_⟩
    · rintro ⟨free, listed⟩
      exact idle.elim (· free) listed
    · have eligible : ∀ k, (s.slotTakes b).fetchEligible k = true ↔ able k := fun k => by
        rw [State.fetchEligible_of (s := s) (t := s.slotTakes b) (tried := 0#8) rfl rfl rfl,
          hasStation_zero]
        simp [able]
      have fresh : (s.slotTakes b).repair.fetch.tried = 0#8 := rfl
      rw [State.fetchStep_of_head idle listed]
      refine ⟨fun k can least => ?_, fun none => ?_⟩
      · rw [State.chooseFetchTarget_of_able ((eligible k).mpr can)
          (fun j h => least j ((eligible j).mp h))]
        rfl
      · rw [State.chooseFetchTarget_of_none (fun k h => none k ((eligible k).mp h)), if_pos fresh]
        rfl
  · intro b n s live window block target f tried u able
    have slot : u.repair.fetch = { f with
        tried := tried, window := none, backOff := none, frames := [] } := by
      simp [u, f]
    have control : u.control = s.control := by simp [u]
    have member : u.member = s.member := by simp [u]
    have eligible : ∀ k, u.fetchEligible k = true ↔ able k := fun k =>
      State.fetchEligible_of (s := s) control member (by rw [slot]) k
    have gives : s.giveUpFetch = u.chooseFetchTarget b := State.giveUpFetch_of_asking block target
    rw [exec_fetchSlotWindowExpiry_of_due live window, gives]
    refine ⟨fun k can least => ?_, fun none => ?_⟩
    · rw [State.chooseFetchTarget_of_able ((eligible k).mpr can)
        (fun j h => least j ((eligible j).mp h))]
      have frames : u.repair.fetch.frames = [] := by rw [slot]
      have own : u.own = s.own := State.own_of control
      have sent : (u.onFetch fun f =>
          { f with state := .fetchSending, target := some k }).sendSlotFetch k b =
          (u.onFetch fun f => { f with
            state := .fetchSending, target := some k
            frames := f.frames ++ [u.line.nextId] }).bumpId.place u.line.nextId
              ⟨u.own, some k, .fetch (BitVec.ofNat 16 b)⟩ := rfl
      rw [sent, own]
      simp only [State.onFetch, State.onRepair, frames, List.nil_append]
    · have some : u.repair.fetch.tried ≠ 0#8 := by
        rw [slot]
        exact addStation_ne_zero _ _
      rw [State.chooseFetchTarget_of_none (fun k h => none k ((eligible k).mp h)), if_neg some]
      refine ⟨_, rfl, rfl, ?_, ?_, ?_, ?_, ?_⟩
      · simp [State.unlistRepair, u]
      · simp [State.raise, u]
      · simp [u]
      · simp [u]
      · simp [member]
  · intro b s live backOff block f id
    rw [exec_fetchSlotBackOffExpiry_of_due live backOff]
    refine ⟨fun state => ?_, ?_⟩
    · rw [State.slotBackOffEnded_of_peerWait block state]
    intro waits
    refine ⟨fun state idle => ?_, fun n target sends => ?_⟩
    · cases target : s.repair.fetch.target with
      | none => rw [State.slotBackOffEnded_of_no_target block state target]
      | some n =>
        rw [State.slotBackOffEnded_of_awaiting block state target, if_neg]
        rintro sends
        rw [Bool.and_eq_true, Bool.not_eq_true'] at sends
        obtain ⟨runs, placed⟩ := sends
        rcases idle with ended | waiting
        · simp [show s.repair.fetch.window = none from ended] at runs
        · exact Bool.false_ne_true (placed.symm.trans ((State.waits_iff _).mpr waiting))
    · rcases sends with state | ⟨state, runs, placed⟩
      · have sending : s.repair.fetch.state = .backOff := state
        rw [State.slotBackOffEnded_of_backOff block state target]
        simp only [State.sendSlotFetch, State.onFetch, State.onRepair, sending, if_true]
        rfl
      · have awaiting : s.repair.fetch.state = .fetchAwaiting := state
        have sends : (s.repair.fetch.window.isSome && !s.waits s.repair.fetch.frames) = true := by
          rw [Bool.and_eq_true, Bool.not_eq_true', Option.isSome_iff_ne_none]
          exact ⟨runs, by simpa using mt (State.waits_iff _).mp placed⟩
        rw [State.slotBackOffEnded_of_awaiting block state target, if_pos sends]
        simp only [State.sendSlotFetch, State.onFetch, State.onRepair, awaiting]
        rfl

end Sys2Proof.Machine
end

section
/-! PROOF. The expiries of the catch-up cursor, what ends with an attempt, the choice of a server
and the digest (O51). -/

namespace Sys2Proof.Machine

/-! ## The expiries (R172, R173) -/

section
variable {s : State}

theorem exec_rangeWindowExpiry_of_due (live : s.live = true)
    (state : s.repair.cursor.state = .awaitingRange)
    (window : s.repair.cursor.rangeWindow = some 0) :
    exec .rangeWindowExpiry s = .next s.failAttempt.settle := by
  have due : (s.repair.cursor.rangeWindow.due &&
      decide (s.repair.cursor.state = .awaitingRange)) = true := by
    simp [Window.due, state, window]
  exact congrArg Host.Outcome.next (State.expire_of_due _ live due)

theorem exec_pushDeadlineExpiry_of_due (live : s.live = true)
    (state : s.repair.cursor.state = .pushing)
    (deadline : s.repair.cursor.pushDeadline = some 0) :
    exec .pushDeadlineExpiry s = .next s.pushDeadlinePassed.settle := by
  have due : (s.repair.cursor.pushDeadline.due &&
      decide (s.repair.cursor.state = .pushing)) = true := by
    simp [Window.due, state, deadline]
  exact congrArg Host.Outcome.next (State.expire_of_due _ live due)

theorem State.pushDeadlinePassed_of_settled
    (settled : ∀ p, p ∈ s.repair.cursor.pushes → p.state = .settled) :
    s.pushDeadlinePassed = s.onCursor fun c => { c with pushDeadline := none } :=
  if_pos (by simpa using settled)

theorem State.pushDeadlinePassed_of_unsettled
    (unsettled : ∃ p, p ∈ s.repair.cursor.pushes ∧ p.state ≠ .settled) :
    s.pushDeadlinePassed = s.failAttempt :=
  if_neg (by simpa using unsettled)

theorem exec_digestBackoffExpiry_of_due (live : s.live = true)
    (state : s.repair.cursor.state = .digestBackoff)
    (backOff : s.repair.cursor.backOff = some 0) :
    exec .digestBackoffExpiry s = .next s.digestAgain.settle := by
  have due : (s.repair.cursor.backOff.due &&
      decide (s.repair.cursor.state = .digestBackoff)) = true := by
    simp [Window.due, state, backOff]
  exact congrArg Host.Outcome.next (State.expire_of_due _ live due)

theorem exec_restExpiry_of_due (live : s.live = true)
    (state : s.repair.cursor.state = .resting) (rest : s.repair.cursor.rest = some 0) :
    exec .restExpiry s = .next s.restEnded.settle := by
  have due : (s.repair.cursor.rest.due && decide (s.repair.cursor.state = .resting)) = true := by
    simp [Window.due, state, rest]
  exact congrArg Host.Outcome.next (State.expire_of_due _ live due)

/-! ## The end of an attempt (R172) -/

theorem State.failAttempt_of_attempts_left (left : s.repair.cursor.attempt < 4) :
    s.failAttempt =
      (s.haltCursor.onCursor fun c => { c with attempt := c.attempt + 1 }).startDigest :=
  if_pos left

theorem State.failAttempt_of_last_attempt (last : 4 ≤ s.repair.cursor.attempt) :
    s.failAttempt = s.dropServer := if_neg (Nat.not_lt.mpr last)

/-- A frame that joins moves the cursor on only where the cursor waits to place it. -/
theorem State.join_cursor_of_ready (ready : s.repair.cursor.work = .ready) (id : Nat) (f : Frame) :
    (s.join id f).repair.cursor = s.repair.cursor := if_neg (by simp [ready])

theorem State.handOut_cursor_of_ready (ready : s.repair.cursor.work = .ready) :
    s.handOut.repair.cursor = s.repair.cursor := by
  unfold State.handOut
  split
  · split
    · rfl
    · exact State.join_cursor_of_ready (s := s.onLine _) ready _ _
  · rfl

theorem State.withdraw_cursor_of_ready (ready : s.repair.cursor.work = .ready) (id : Nat) :
    (s.withdraw id).repair.cursor = s.repair.cursor := by
  unfold State.withdraw
  split
  · rfl
  split
  · rfl
  split
  · exact State.handOut_cursor_of_ready (s := s.onLine _) ready
  · rfl

theorem State.withdrawAll_cursor_of_ready (ready : s.repair.cursor.work = .ready)
    (ids : List Nat) : (s.withdrawAll ids).repair.cursor = s.repair.cursor := by
  have each : ∀ (l : List Nat) (t : State), t.repair.cursor.work = .ready →
      (l.foldl State.withdraw t).repair.cursor = t.repair.cursor := by
    intro l
    induction l with
    | nil => exact fun _ _ => rfl
    | cons id rest ih =>
      intro t h
      have kept := State.withdraw_cursor_of_ready h id
      exact (ih _ (by rw [kept]; exact h)).trans kept
  exact each ids (s.onLine _) ready

/-- The cursor with what ends with an attempt over. -/
def Cursor.halted (c : Cursor) : Cursor :=
  { c with rangeWindow := none, pushDeadline := none, backOff := none, rest := none
           work := .ready, frames := [], earlier := [] }

/-- The station whose cursor's frames have been withdrawn. -/
def State.unframed (s : State) : State :=
  (s.onCursor Cursor.halted).withdrawAll (s.repair.cursor.earlier ++ s.repair.cursor.frames)

theorem State.haltCursor_of_reading {id : Nat} (reading : s.repair.cursor.work = .reading id) :
    s.haltCursor = s.unframed.dropEngineRequest id := by
  simp only [State.haltCursor, reading]
  rfl

theorem State.haltCursor_eq (s : State) :
    s.haltCursor = s.unframed ∨ ∃ id, s.haltCursor = s.unframed.dropEngineRequest id := by
  unfold State.haltCursor
  dsimp only
  split
  · exact .inr ⟨_, rfl⟩
  · exact .inl rfl

theorem State.haltCursor_unit (s : State) :
    s.haltCursor.repair = s.unframed.repair ∧ s.haltCursor.line = s.unframed.line := by
  rcases s.haltCursor_eq with same | ⟨id, same⟩ <;> rw [same] <;> exact ⟨rfl, rfl⟩

theorem State.haltCursor_cursor (s : State) :
    s.haltCursor.repair.cursor = s.repair.cursor.halted := by
  rw [s.haltCursor_unit.1, State.unframed, State.withdrawAll_cursor_of_ready rfl]
  rfl

theorem State.haltCursor_gone (nodup : (s.line.queue.map (·.id)).Nodup) {id : Nat}
    (mine : id ∈ s.repair.cursor.frames ∨ id ∈ s.repair.cursor.earlier) :
    s.haltCursor.line.Gone id := by
  rw [s.haltCursor_unit.2]
  exact State.withdrawAll_ends (s := s.onCursor Cursor.halted) nodup
    (List.mem_append.mpr mine.symm)

theorem State.haltCursor_reads {id : Nat} (reading : s.repair.cursor.work = .reading id)
    {r : ReadRequest} (waits : r ∈ s.haltCursor.media.engineRequests) : r.id ≠ id := by
  rw [State.haltCursor_of_reading reading] at waits
  simpa using (List.mem_filter.mp waits).2

/-! ## The choice of a server and the digest (R167, R172) -/

/-- A peer that the cursor may take for its server. -/
theorem State.server_iff (n : StationNo) :
    (s.peerReports n .online && !hasStation s.repair.cursor.tried n) = true ↔
      n ≠ s.own ∧ (s.peer n).state = .present ∧ (s.peer n).reported = some .online ∧
        hasStation s.repair.cursor.tried n = false := by
  rw [Bool.and_eq_true, Bool.not_eq_true', State.peerReports_iff, and_assoc, and_assoc]

theorem State.chooseServer_of_able {n : StationNo}
    (able : (s.peerReports n .online && !hasStation s.repair.cursor.tried n) = true)
    (least : ∀ k, (s.peerReports k .online && !hasStation s.repair.cursor.tried k) = true →
      n ≤ k) :
    s.chooseServer = (s.onCursor fun c => { c with server := some n, attempt := 1 }).startDigest := by
  have found : ((List.finRange 8).find? fun n =>
      s.peerReports n .online && !hasStation s.repair.cursor.tried n) = some n :=
    find?_finRange_of_least able least
  simp only [State.chooseServer, found]

theorem State.chooseServer_of_none
    (none : ∀ n, ¬ (s.peerReports n .online && !hasStation s.repair.cursor.tried n) = true) :
    s.chooseServer = s.onCursor fun c => { c with
      state := .resting, server := .none, tried := 0#8, rest := some (4 * s.interval) } := by
  have found : ((List.finRange 8).find? fun n =>
      s.peerReports n .online && !hasStation s.repair.cursor.tried n) = .none :=
    List.find?_eq_none.mpr fun n _ => none n
  simp only [State.chooseServer, found]

theorem State.atJoining_digest (s : State) (sender target : StationNo) (range : Fin 64)
    (versions : Vector Version 64) :
    ∃ now : Vector Version 64,
      s.atJoining ⟨sender, some target, .digest range versions⟩ =
        ⟨sender, some target, .digest range now⟩ ∧
      ∀ i : Fin 64, now.get i = (s.entryOf (64 * range.val + i.val)).version :=
  ⟨s.digestVersions range, rfl, fun i => by
    rw [State.digestVersions, Vector.get_eq_getElem, Vector.getElem_ofFn]⟩

theorem State.atJoining_other {f : Frame}
    (other : ∀ range versions, f.body ≠ .digest range versions) : s.atJoining f = f := by
  unfold State.atJoining
  split
  · rename_i digest
    exact absurd digest (other _ _)
  · rfl

/-- The cursor as it makes a DIGEST (R167). -/
def Cursor.digesting (c : Cursor) (id : Nat) : Cursor :=
  { c with state := .digestSending, counted := 0#64, pushes := [], work := .ready
           frames := [id], earlier := c.earlier ++ c.frames }

theorem State.startDigest_of_server {n : StationNo} (server : s.repair.cursor.server = some n) :
    s.startDigest =
      (s.onCursor fun c => c.digesting s.line.nextId).bumpId.place s.line.nextId
        ⟨s.own, some n, .digest (Fin.ofNat 64 s.repair.cursor.range)
          (Vector.replicate 64 .nil)⟩ := by
  simp only [State.startDigest, server]
  rfl

theorem State.startDigest_cursor {n : StationNo} (server : s.repair.cursor.server = some n) :
    s.startDigest.repair.cursor = s.repair.cursor.digesting s.line.nextId := by
  rw [State.startDigest_of_server server, State.place_cursor_of_ready rfl]
  rfl

end

/-- Settles O51: the four expiries, the ends of an attempt, the withdrawal of the cursor's frames,
the choice of a server and the digest. -/
theorem cursorWindowsExpire : Obligations.CursorWindowsExpire := by
  refine ⟨fun s => exec_rangeWindowExpiry_of_due, fun s live state deadline => ?_,
    fun s => exec_digestBackoffExpiry_of_due, fun s => exec_restExpiry_of_due,
    fun s => ⟨State.failAttempt_of_attempts_left, State.failAttempt_of_last_attempt,
      fun n server => ?_, fun works => if_neg works⟩,
    fun s nodup => ⟨s.haltCursor_cursor, fun id mine => State.haltCursor_gone nodup mine,
      fun id reading r waits => State.haltCursor_reads reading waits⟩, fun s => ?_⟩
  · rw [exec_pushDeadlineExpiry_of_due live state deadline]
    refine ⟨fun unsettled => ?_, fun settled => ?_⟩
    · rw [State.pushDeadlinePassed_of_unsettled unsettled]
    · rw [State.pushDeadlinePassed_of_settled settled]
  · have kept : s.haltCursor.repair.cursor.server = some n := by
      rw [State.haltCursor_cursor]
      exact server
    unfold State.dropServer
    simp only [State.onCursor, State.onRepair, kept]
  · intro online
    have able : ∀ n, (s.peerReports n .online && !hasStation s.repair.cursor.tried n) = true ↔
        online n := State.server_iff
    refine ⟨fun n can least => ?_, fun none => ?_, s.atJoining_digest,
      fun f => State.atJoining_other, fun n server => ⟨fun range same => ?_, ?_⟩⟩
    · exact State.chooseServer_of_able ((able n).mpr can) fun k h => least k ((able k).mp h)
    · exact State.chooseServer_of_none fun n h => none n ((able n).mp h)
    · have index : Fin.ofNat 64 s.repair.cursor.range = range := by
        rw [← same]
        exact Fin.ext (Nat.mod_eq_of_lt range.isLt)
      rw [State.startDigest_of_server server, index]
      rfl
    · rw [State.startDigest_cursor server]
      exact ⟨rfl, rfl, rfl, rfl, server, rfl, rfl, rfl⟩

end Sys2Proof.Machine
end

section
/-! PROOF. SUBMIT_WRITE and SUBMIT_ABORT (O53, O55). -/

namespace Sys2Proof.Machine

/-! ## The checks of a write (R120, R123) -/

section
variable {s : State} {tag : Byte} {block : BitVec 16} {d : Data}

theorem State.freeProposal_eq_none : s.freeProposal = none ↔ ∀ i, (s.proposal i).state ≠ .free := by
  simp [State.freeProposal]

theorem State.freeProposal_of_least {i : Fin 8} (free : (s.proposal i).state = .free)
    (least : ∀ j, (s.proposal j).state = .free → i ≤ j) : s.freeProposal = some i :=
  find?_finRange_of_least (decide_eq_true free) fun j h => least j (of_decide_eq_true h)

theorem State.submitWrite_of_refused {outcome : SubmitOutcome}
    (judged : s.checkWrite tag block = outcome) (refused : outcome ≠ .accepted) :
    s.submitWrite tag block d = s.record tag outcome := by
  unfold State.submitWrite
  rw [judged]
  split
  · exact absurd rfl refused
  · rfl

theorem State.submitWrite_of_accepted {i : Fin 8} (judged : s.checkWrite tag block = .accepted)
    (free : s.freeProposal = some i) :
    s.submitWrite tag block d = s.offerWrite i tag block.toNat d := by
  simp only [State.submitWrite, judged, free]

theorem State.checkWrite_of_phase (other : s.member.phase.quorumPermit ≠ .accepted) :
    s.checkWrite tag block = s.member.phase.quorumPermit := if_pos other

theorem quorumPermit_of_other {p : Phase} (online : p ≠ .online) (isolated : p ≠ .isolated) :
    p.quorumPermit = .notReady := by
  cases p with
  | online => exact absurd rfl online
  | isolated => exact absurd rfl isolated
  | mounting | listening | catchingUp | faulted => rfl

/-- The checks in ONLINE, in their order (R123). -/
theorem State.checkWrite_of_online (online : s.member.phase = .online) :
    s.checkWrite tag block =
      if s.freeProposal = none then .tableFull
      else if s.tagInUse tag = true then .badTag
      else if 4096 ≤ block.toNat then .badBlock
      else if s.store.clock = 0xFFFFFFFF#32 then .clockExhausted
      else .accepted := by
  have permit : ¬ s.member.phase.quorumPermit ≠ .accepted := by simp [online, Phase.quorumPermit]
  refine (if_neg permit).trans ?_
  simp only [Option.isNone_iff_eq_none]
  rfl

/-! ## The LOCAL offer (R3, R124) -/

/-- The version of the next write (R3). -/
def State.nextVersion (s : State) : Version := ⟨s.store.clock + 1#32, s.own⟩

theorem State.offerWrite_of_refused {i : Fin 8} {b : Nat} {u : State} {answer : Answer}
    (offered : s.offer b s.nextVersion d .localWrite = (u, answer)) (refused : answer ≠ .accept) :
    s.offerWrite i tag b d = s.record tag .busy := by
  have offered : s.offer b ⟨s.store.clock + 1#32, s.own⟩ d .localWrite = (u, answer) := offered
  unfold State.offerWrite
  dsimp only
  rw [offered]
  cases answer with
  | accept => exact absurd rfl refused
  | duplicate | stale _ | busy => rfl

theorem State.offerWrite_of_accepted {i : Fin 8} {b : Nat} {u : State}
    (offered : s.offer b s.nextVersion d .localWrite = (u, .accept)) :
    s.offerWrite i tag b d =
      ((u.onStore fun st => { st with clock := s.store.clock + 1#32 }).startProposal i tag b
        s.nextVersion d).record tag .accepted := by
  have offered : s.offer b ⟨s.store.clock + 1#32, s.own⟩ d .localWrite = (u, .accept) := offered
  unfold State.offerWrite
  dsimp only
  rw [offered]
  rfl

/-- The entry of an accepted write (R124). -/
def Proposal.start (tag : Byte) (b : Nat) (v : Version) (d : Data) (own : StationNo) : Proposal :=
  ⟨.sending, tag, b, v, d, addStation 0#8 own, 1, none, none, none, []⟩

theorem State.startProposal_of_one {i : Fin 8} {b : Nat} {v : Version} (one : s.quorum ≤ 1) :
    s.startProposal i tag b v d =
      (s.setProposal i (.start tag b v d s.own)).finishProposal i .ok none := if_pos one

theorem State.startProposal_of_more {i : Fin 8} {b : Nat} {v : Version} (more : 1 < s.quorum) :
    s.startProposal i tag b v d =
      (s.setProposal i { Proposal.start tag b v d s.own with
        frames := [s.line.nextId] }).bumpId.place s.line.nextId
          ⟨s.own, none, .update (BitVec.ofNat 16 b) v 1#8 (~~~(addStation 0#8 s.own)) false d⟩ := by
  refine (if_neg (Nat.not_le.mpr more)).trans ?_
  rw [State.sendUpdate_setProposal]
  rfl

end

/-- Settles O53: the refusals in their order, the LOCAL offer, and what its acceptance starts. -/
theorem submitWriteIsJudged : Obligations.SubmitWriteIsJudged := by
  intro tag block d o ready s c recorded online full clash outside exhausted v
  have run : exec c o = .next (s.submitWrite tag block d).settle :=
    congrArg Host.Outcome.next (State.closing_of_ready ready _)
  rw [run]
  have refuses : ∀ outcome, s.checkWrite tag block = outcome → outcome ≠ .accepted →
      Host.Outcome.next (s.submitWrite tag block d).settle =
        (Host.Outcome.next (recorded s outcome).settle : Host.Outcome State Fault Refusal) := by
    intro outcome judged refused
    rw [State.submitWrite_of_refused judged refused]
    rfl
  have free : full ↔ s.freeProposal = none := State.freeProposal_eq_none.symm
  refine ⟨fun isolated => ?_, fun offLine other => ?_, fun here none => ?_, fun here some used => ?_,
    fun here some unused far => ?_, fun here some unused near last => ?_, ?_⟩
  · have permit : s.member.phase.quorumPermit = .noQuorum := by rw [isolated]; rfl
    exact refuses _ ((State.checkWrite_of_phase (by simp [permit])).trans permit) (by simp)
  · have permit := quorumPermit_of_other offLine other
    exact refuses _ ((State.checkWrite_of_phase (by simp [permit])).trans permit) (by simp)
  · exact refuses _ ((State.checkWrite_of_online here).trans (if_pos (free.mp none))) (by simp)
  · refine refuses _ ((State.checkWrite_of_online here).trans ?_) (by simp)
    rw [if_neg (mt free.mpr some), if_pos used]
  · refine refuses _ ((State.checkWrite_of_online here).trans ?_) (by simp)
    rw [if_neg (mt free.mpr some), if_neg unused, if_pos far]
  · refine refuses _ ((State.checkWrite_of_online here).trans ?_) (by simp)
    rw [if_neg (mt free.mpr some), if_neg unused, if_neg near, if_pos last]
  · intro here some unused near more u answer offered
    have judged : s.checkWrite tag block = .accepted := by
      rw [State.checkWrite_of_online here, if_neg (mt free.mpr some), if_neg unused, if_neg near,
        if_neg more]
    refine ⟨fun refused => ?_, fun accepted i vacant least => ?_⟩
    · obtain ⟨i, found⟩ := Option.ne_none_iff_exists'.mp (mt free.mpr some)
      rw [State.submitWrite_of_accepted judged found, State.offerWrite_of_refused offered refused]
      rfl
    · subst accepted
      have control : u.control = s.control := by
        have same := s.offer_control block.toNat v d .localWrite
        rwa [offered] at same
      have own : (u.onStore fun st => { st with clock := s.store.clock + 1#32 }).own = s.own :=
        State.own_of control
      have quorum : (u.onStore fun st => { st with clock := s.store.clock + 1#32 }).quorum =
          s.quorum := State.quorum_of control
      rw [State.submitWrite_of_accepted judged (State.freeProposal_of_least vacant least),
        State.offerWrite_of_accepted offered]
      refine ⟨fun one => ?_, fun several => ?_⟩
      · rw [State.startProposal_of_one (by rw [quorum, one]), own]
        rfl
      · rw [State.startProposal_of_more (by rw [quorum]; exact several), own]
        have twice : ∀ (w : State) (p q : Proposal),
            w.setProposal i q = (w.setProposal i p).setProposal i q := fun w p q =>
          (State.setProposal_setProposal w i p q).symm
        rw [twice _ (.start tag block.toNat s.nextVersion d s.own)]
        rfl

/-! ## SUBMIT_ABORT (R135, R154) -/

section
variable {s : State} {tag : Byte}

theorem State.submitAbort_of_not_running (h : s.member.phase.running = false) :
    s.submitAbort tag = s.record tag .notReady := if_neg (by simp [h])

theorem State.submitAbort_of_unknown (running : s.member.phase.running = true)
    (unknown : s.tagInUse tag = false) : s.submitAbort tag = s.record tag .unknownTag := by
  simp only [State.tagInUse, Bool.or_eq_false_iff, List.any_eq_false] at unknown
  have proposal : s.proposalOf tag = none :=
    List.find?_eq_none.mpr fun i hi => unknown.1 i hi
  have read : s.readOf tag = none :=
    List.find?_eq_none.mpr fun i hi => unknown.2 i hi
  refine (if_pos running).trans ?_
  simp only [proposal, read]

theorem State.submitAbort_of_proposal (running : s.member.phase.running = true) {i : Fin 8}
    (found : s.proposalOf tag = some i) :
    s.submitAbort tag = (s.finishProposal i .aborted none).record tag .accepted := by
  refine (if_pos running).trans ?_
  simp only [found]

theorem State.submitAbort_of_read (running : s.member.phase.running = true)
    (none : s.proposalOf tag = none) {i : Fin 4} (found : s.readOf tag = some i) :
    s.submitAbort tag =
      (s.finishRead i .aborted (s.entryOf (s.readEntry i).block).version Data.zero).record tag
        .accepted := by
  refine (if_pos running).trans ?_
  simp only [none, found]

theorem State.tag_of_proposalOf {i : Fin 8} (found : s.proposalOf tag = some i) :
    (s.proposal i).tag = tag := by
  have tagged := List.find?_some found
  simp only [Bool.and_eq_true, decide_eq_true_eq] at tagged
  exact tagged.2

theorem State.occupied_of_readOf {i : Fin 4} (found : s.readOf tag = some i) :
    (s.readEntry i).state ≠ .free ∧ (s.readEntry i).tag = tag := by
  have tagged := List.find?_some found
  simpa only [Bool.and_eq_true, decide_eq_true_eq] using tagged

end

/-- Settles O55, by what carries the tag: nothing, a proposal, a read. -/
theorem abortEndsItsEntry : Obligations.AbortEndsItsEntry := by
  intro tag o ready s c recorded
  have run : exec c o = .next (s.submitAbort tag).settle :=
    congrArg Host.Outcome.next (State.closing_of_ready ready _)
  rw [run]
  refine ⟨fun idle => ?_, fun running unknown => ?_, fun running i found => ?_,
    fun running none i found => ?_⟩
  · rw [State.submitAbort_of_not_running idle]
    rfl
  · rw [State.submitAbort_of_unknown running unknown]
    rfl
  · rw [State.submitAbort_of_proposal running found]
    refine ⟨fun open_ => ?_, fun finished => ?_⟩
    · have ends := State.finishProposal_of_running .aborted none open_
      rw [State.tag_of_proposalOf found] at ends
      rw [ends]
      rfl
    · rw [State.finishProposal_of_not_running _ _ (by simp [Proposal.running, finished])]
      rfl
  · rw [State.submitAbort_of_read running none found]
    intro e
    refine ⟨fun finished => ?_, ?_⟩
    · rw [State.finishRead_of_not_running _ _ _ (by
        simp [ReadEntry.running, show (s.readEntry i).state = .finished from finished])]
      rfl
    · intro unfinished t u
      obtain ⟨occupied, same⟩ := State.occupied_of_readOf found
      have open_ : (s.readEntry i).running = true := by
        simp only [ReadEntry.running, Bool.and_eq_true, decide_eq_true_eq]
        exact ⟨occupied, unfinished⟩
      have ends : (s.finishRead i .aborted (s.entryOf (s.readEntry i).block).version
          Data.zero).record tag .accepted = u := by
        rw [State.finishRead_of_running _ _ _ open_, same]
        rfl
      have entry : u.readEntry i = e.ended .aborted := by
        rw [← ends]
        exact (State.readEntry_finishRead _ _ _ open_ i).trans (if_pos rfl)
      have completions : u.client.completions = s.client.completions ++
          [.read tag .aborted (s.entryOf e.block).version s.member.phase Data.zero] := by
        have placed := State.completions_finishRead .aborted
          (s.entryOf (s.readEntry i).block).version Data.zero open_
        rw [same] at placed
        rw [← ends]
        exact placed
      rw [ends, entry]
      exact ⟨rfl, rfl, rfl, rfl, rfl, completions⟩

end Sys2Proof.Machine
end

section
/-! PROOF. SUBMIT_READ_LOCAL and SUBMIT_READ_FRESH (O54). -/

namespace Sys2Proof.Machine

/-! ## The checks of a read (R120, R143) -/

section
variable {s : State} {tag : Byte} {block : BitVec 16}

theorem State.freeRead_eq_none : s.freeRead = none ↔ ∀ i, (s.readEntry i).state ≠ .free := by
  simp [State.freeRead]

theorem State.freeRead_of_least {i : Fin 4} (free : (s.readEntry i).state = .free)
    (least : ∀ j, (s.readEntry j).state = .free → i ≤ j) : s.freeRead = some i :=
  find?_finRange_of_least (decide_eq_true free) fun j h => least j (of_decide_eq_true h)

theorem State.checkRead_of_refused {permit : SubmitOutcome} (refused : permit ≠ .accepted) :
    s.checkRead permit tag block = permit := if_pos refused

/-- The checks of a read that the phase permits, in their order (R143). -/
theorem State.checkRead_of_permitted :
    s.checkRead .accepted tag block =
      if s.freeRead = none then .tableFull
      else if s.tagInUse tag = true then .badTag
      else if 4096 ≤ block.toNat then .badBlock
      else .accepted := by
  refine (if_neg (not_not.mpr rfl)).trans ?_
  simp only [Option.isNone_iff_eq_none]
  rfl

theorem State.submitReadLocal_of_refused {outcome : SubmitOutcome}
    (judged : s.checkRead s.member.phase.localPermit tag block = outcome)
    (refused : outcome ≠ .accepted) :
    s.submitReadLocal tag block = s.record tag outcome := by
  unfold State.submitReadLocal
  rw [judged]
  split
  · exact absurd rfl refused
  · rfl

theorem State.submitReadFresh_of_refused {outcome : SubmitOutcome}
    (judged : s.checkRead s.member.phase.quorumPermit tag block = outcome)
    (refused : outcome ≠ .accepted) :
    s.submitReadFresh tag block = s.record tag outcome := by
  unfold State.submitReadFresh
  rw [judged]
  split
  · exact absurd rfl refused
  · rfl

theorem State.submitReadLocal_of_accepted {i : Fin 4}
    (judged : s.checkRead s.member.phase.localPermit tag block = .accepted)
    (free : s.freeRead = some i) :
    s.submitReadLocal tag block =
      ((s.setRead i (.start tag block.toNat .localRead)).beginLocal i).record tag .accepted := by
  simp only [State.submitReadLocal, judged, free]

theorem State.submitReadFresh_of_accepted {i : Fin 4}
    (judged : s.checkRead s.member.phase.quorumPermit tag block = .accepted)
    (free : s.freeRead = some i) :
    s.submitReadFresh tag block =
      ((s.setRead i (.start tag block.toNat .fresh)).beginFresh i).record tag .accepted := by
  simp only [State.submitReadFresh, judged, free]

theorem localPermit_of_not_running {p : Phase} (h : ¬ (p = .online ∨ p = .isolated)) :
    p.localPermit = .notReady := by
  cases p with
  | online => exact absurd (.inl rfl) h
  | isolated => exact absurd (.inr rfl) h
  | mounting | listening | catchingUp | faulted => rfl

theorem localPermit_of_running {p : Phase} (h : p = .online ∨ p = .isolated) :
    p.localPermit = .accepted := by
  rcases h with rfl | rfl <;> rfl

end

/-! ## The local path of a new read (R144) -/

section
variable (s : State) (i : Fin 4)

/-- The completion record of a read that the map answers (R144). -/
def State.mapRecord (s : State) (tag : Byte) (b : Nat) : CompletionRecord :=
  if (s.entryOf b).condition = .staged then
    .read tag .ok (s.entryOf b).version s.member.phase (s.stagedData b)
  else if (s.entryOf b).condition = .lost then
    .read tag .blockLost (s.entryOf b).version s.member.phase Data.zero
  else .read tag .unwritten .nil s.member.phase Data.zero

theorem State.finishFromMap_spec (running : (s.readEntry i).running = true)
    (other : (s.entryOf (s.readEntry i).block).condition ≠ .clean) :
    (∃ r, (s.finishFromMap i).readEntry i = (s.readEntry i).ended r) ∧
      (s.finishFromMap i).client.completions =
        s.client.completions ++ [s.mapRecord (s.readEntry i).tag (s.readEntry i).block] := by
  have ends : ∀ r v d, ((s.finishRead i r v d).readEntry i = (s.readEntry i).ended r) := fun r v d =>
    (State.readEntry_finishRead r v d running i).trans (if_pos rfl)
  cases entry : (s.entryOf (s.readEntry i).block).condition with
  | clean => exact absurd entry other
  | staged =>
    rw [State.finishFromMap_of_staged entry, State.completions_finishRead _ _ _ running,
      State.mapRecord, if_pos entry]
    exact ⟨⟨_, ends _ _ _⟩, rfl⟩
  | lost =>
    rw [State.finishFromMap_of_lost entry, State.completions_finishRead _ _ _ running,
      State.mapRecord, if_neg (by simp [entry]), if_pos entry]
    exact ⟨⟨_, ends _ _ _⟩, rfl⟩
  | unwritten =>
    rw [State.finishFromMap_of_unwritten entry, State.completions_finishRead _ _ _ running,
      State.mapRecord, if_neg (by simp [entry]), if_neg (by simp [entry])]
    exact ⟨⟨_, ends _ _ _⟩, rfl⟩

theorem State.readEntry_requestRead :
    (s.requestRead i).readEntry i =
      { s.readEntry i with state := .reading, request := some s.line.nextId } :=
  State.readEntry_setRead_self ..

/-- A read that takes the local path with its entry just written (R144). -/
theorem State.beginLocal_spec {e : ReadEntry} (running : e.running = true) :
    let u := (s.setRead i e).beginLocal i
    (u.readEntry i).tag = e.tag ∧ (u.readEntry i).block = e.block ∧
      ((s.entryOf e.block).condition = .clean → (u.readEntry i).state = .reading ∧
        (u.readEntry i).request = some s.line.nextId ∧
        u.media.clientRequests = s.media.clientRequests ++ [⟨.client, s.line.nextId, e.block⟩] ∧
        u.client.completions = s.client.completions) ∧
      ((s.entryOf e.block).condition ≠ .clean → (u.readEntry i).state = .finished ∧
        u.client.completions = s.client.completions ++ [s.mapRecord e.tag e.block]) := by
  have written : (s.setRead i e).readEntry i = e := s.readEntry_setRead_self i e
  by_cases clean : (s.entryOf e.block).condition = .clean
  · have asks : (s.setRead i e).beginLocal i = (s.setRead i e).requestRead i :=
      if_pos (by rw [written]; exact clean)
    dsimp only
    rw [asks, State.readEntry_requestRead, written]
    refine ⟨rfl, rfl, fun _ => ⟨rfl, rfl, ?_, rfl⟩, fun other => absurd clean other⟩
    simp only [State.requestRead, written]
    rfl
  · have finishes : (s.setRead i e).beginLocal i = (s.setRead i e).finishFromMap i :=
      if_neg (by rw [written]; exact clean)
    obtain ⟨⟨r, entry⟩, completions⟩ := (s.setRead i e).finishFromMap_spec i
      (by rw [written]; exact running) (by rw [written]; exact clean)
    rw [written] at entry completions
    dsimp only
    rw [finishes, entry, completions]
    exact ⟨rfl, rfl, fun h => absurd h clean, fun _ => ⟨rfl, rfl⟩⟩

end

/-! ## A fresh read (R147) -/

section
variable (s : State) (i : Fin 4) {e : ReadEntry}

/-- The own report, which a fresh read enters first (R147). -/
def State.ownReport (s : State) (e : ReadEntry) : ReadEntry :=
  { e with
    state := .querySending
    reports := e.reports.set s.own
      (some ⟨(s.entryOf e.block).version, (s.entryOf e.block).held⟩) }

/-- The entry of a fresh read whose own report has ended the collection (R149, R150). -/
def State.collectedAlone (s : State) (e : ReadEntry) : ReadEntry :=
  { s.ownReport e with queryWindow := none, frames := [], candidates := [] }

theorem State.beginFresh_setRead :
    (s.setRead i e).beginFresh i =
      let t := if s.quorum ≤ (s.ownReport e).reportCount then
          (s.setRead i (s.ownReport e)).endCollection i
        else s.setRead i (s.ownReport e)
      if 1 < s.quorum then t.sendQuery i else t := by
  simp only [State.beginFresh, State.enterReport, State.readEntry_setRead_self,
    State.setRead_setRead]
  rfl

theorem State.withdrawAll_nil (s : State) : s.withdrawAll [] = s := by
  simp [State.withdrawAll, State.onLine]

variable (silent : e.reports = Vector.replicate 8 none)

include silent in
theorem State.reportCount_ownReport : (s.ownReport e).reportCount = 1 := by
  refine ReadEntry.reportCount_of_one (n := s.own)
    (r := ⟨(s.entryOf e.block).version, (s.entryOf e.block).held⟩) ?_
  rw [State.ownReport, silent]

include silent in
/-- With its own report alone a read has no fetch candidate (R150). -/
theorem State.formCandidates_ownReport (t : State) (own : t.own = s.own) :
    t.formCandidates (s.ownReport e) = [] := by
  refine List.eq_nil_iff_forall_not_mem.mpr fun n member => ?_
  obtain ⟨peer, candidate⟩ := (t.mem_formCandidates _ n).mp member
  rw [own] at peer
  have none : (s.ownReport e).reports.get n = none := by
    rw [State.ownReport, silent]
    refine (vector_get_set _ _ _ _).trans ((if_neg (Ne.symm peer)).trans ?_)
    simp [Vector.get]
  simp [none, isCandidate] at candidate

include silent in
/-- In a group of one a fresh read takes the local path at once (R147, R150). -/
theorem State.beginFresh_of_one (one : s.quorum = 1) (frames : e.frames = []) :
    (s.setRead i e).beginFresh i =
      (s.setRead i (s.collectedAlone e)).beginLocal i := by
  have count : s.quorum ≤ (s.ownReport e).reportCount := by
    rw [s.reportCount_ownReport silent, one]
  have none : (s.setRead i (s.ownReport e)).formCandidates (s.ownReport e) = [] :=
    s.formCandidates_ownReport silent _ rfl
  have framesNone : (s.ownReport e).frames = [] := frames
  rw [State.beginFresh_setRead]
  dsimp only
  rw [if_pos count, if_neg (by rw [one]; exact Nat.lt_irrefl 1), State.endCollection_eq]
  simp only [State.readEntry_setRead_self, none, framesNone, State.setRead_setRead,
    State.withdrawAll_nil, if_true]
  rfl

include silent in
/-- With more than one station needed a fresh read queries those that have not reported (R147). -/
theorem State.beginFresh_of_more (more : 1 < s.quorum) (frames : e.frames = [])
    (first : e.attempt = 1) :
    (s.setRead i e).beginFresh i =
      (s.setRead i { s.ownReport e with frames := [s.line.nextId] }).bumpId.place s.line.nextId
        ⟨s.own, none, .query (BitVec.ofNat 16 e.block) 1#8 (s.ownReport e).wanted⟩ := by
  have count : ¬ s.quorum ≤ (s.ownReport e).reportCount := by
    rw [s.reportCount_ownReport silent]
    exact Nat.not_le.mpr more
  rw [State.beginFresh_setRead]
  dsimp only
  rw [if_neg count, if_pos more, State.sendQuery_setRead]
  simp only [State.ownReport, frames, first]
  rfl

end

/-- Settles O54: the refusals in their order, the local path, and the QUERY of a fresh read. -/
theorem submitReadIsJudged : Obligations.SubmitReadIsJudged := by
  intro tag block o ready s recorded b m full clash local_ fresh running
  have runLocal : exec local_ o = .next (s.submitReadLocal tag block).settle :=
    congrArg Host.Outcome.next (State.closing_of_ready ready _)
  have runFresh : exec fresh o = .next (s.submitReadFresh tag block).settle :=
    congrArg Host.Outcome.next (State.closing_of_ready ready _)
  have refusesLocal : ∀ outcome,
      s.checkRead s.member.phase.localPermit tag block = outcome → outcome ≠ .accepted →
      exec local_ o = .next (recorded s outcome).settle := by
    intro outcome judged refused
    rw [runLocal, State.submitReadLocal_of_refused judged refused]
    rfl
  have refusesFresh : ∀ outcome,
      s.checkRead s.member.phase.quorumPermit tag block = outcome → outcome ≠ .accepted →
      exec fresh o = .next (recorded s outcome).settle := by
    intro outcome judged refused
    rw [runFresh, State.submitReadFresh_of_refused judged refused]
    rfl
  have free : full ↔ s.freeRead = none := State.freeRead_eq_none.symm
  have refuses : ∀ c, (c = local_ ∧ running) ∨ (c = fresh ∧ s.member.phase = .online) →
      ∀ outcome, s.checkRead .accepted tag block = outcome → outcome ≠ .accepted →
      exec c o = .next (recorded s outcome).settle := by
    rintro c (⟨rfl, runs⟩ | ⟨rfl, online⟩) outcome judged refused
    · exact refusesLocal outcome (by rw [localPermit_of_running runs, judged]) refused
    · exact refusesFresh outcome (by rw [online]; exact judged) refused
  refine ⟨fun idle => ⟨?_, ?_⟩, fun isolated => ?_, fun c permitted =>
    ⟨fun none => ?_, fun some used => ?_, fun some unused far => ?_⟩, ?_⟩
  · have permit := localPermit_of_not_running idle
    exact refusesLocal _ ((State.checkRead_of_refused (by simp [permit])).trans permit) (by simp)
  · have permit := quorumPermit_of_other (fun h => idle (.inl h)) fun h => idle (.inr h)
    exact refusesFresh _ ((State.checkRead_of_refused (by simp [permit])).trans permit) (by simp)
  · have permit : s.member.phase.quorumPermit = .noQuorum := by rw [isolated]; rfl
    exact refusesFresh _ ((State.checkRead_of_refused (by simp [permit])).trans permit) (by simp)
  · exact refuses c permitted _
      (State.checkRead_of_permitted.trans (if_pos (free.mp none))) (by simp)
  · refine refuses c permitted _ (State.checkRead_of_permitted.trans ?_) (by simp)
    rw [if_neg (mt free.mpr some), if_pos used]
  · refine refuses c permitted _ (State.checkRead_of_permitted.trans ?_) (by simp)
    rw [if_neg (mt free.mpr some), if_neg unused, if_pos far]
  · intro unused near i vacant least e
    have found := State.freeRead_of_least vacant least
    have judged : s.checkRead .accepted tag block = .accepted := by
      rw [State.checkRead_of_permitted, if_neg (by simp [found]), if_neg unused,
        if_neg (Nat.not_le.mpr near)]
    have judgedFresh : s.member.phase = .online →
        s.checkRead s.member.phase.quorumPermit tag block = .accepted := by
      intro online
      rw [online]
      exact judged
    refine ⟨fun c permitted => ?_, fun online more => ?_⟩
    · have path : ∃ x : ReadEntry, x.tag = tag ∧ x.block = b ∧ x.running = true ∧
          exec c o = .next (((s.setRead i x).beginLocal i).record tag .accepted).settle := by
        rcases permitted with ⟨rfl, runs⟩ | ⟨rfl, online, one⟩
        · refine ⟨.start tag b .localRead, rfl, rfl, rfl, ?_⟩
          rw [runLocal, State.submitReadLocal_of_accepted
            (by rw [localPermit_of_running runs, judged]) found]
        · refine ⟨s.collectedAlone (.start tag b .fresh), rfl, rfl, rfl, ?_⟩
          rw [runFresh, State.submitReadFresh_of_accepted (judgedFresh online) found,
            s.beginFresh_of_one i rfl one rfl]
      obtain ⟨x, xTag, xBlock, open_, run⟩ := path
      obtain ⟨sameTag, sameBlock, clean, other⟩ := s.beginLocal_spec i open_
      rw [xTag] at sameTag
      rw [xBlock] at sameBlock
      rw [xBlock] at clean other
      rw [xTag] at other
      exact ⟨_, run, rfl, rfl, sameTag, sameBlock, clean, other⟩
    · rw [runFresh, State.submitReadFresh_of_accepted (judgedFresh online) found,
        s.beginFresh_of_more i rfl more rfl rfl]
      rfl

end Sys2Proof.Machine
end

section
/-! PROOF. TAKE and EVENTS, and the event queue (O56). -/

namespace Sys2Proof.Machine

/-! ## The command byte (R178, R179, log 7) -/

section
variable {s : State}

theorem State.atRise_of_closed (closed : s.client.transaction = .closed) : s.atRise = s := by
  rw [State.atRise, ← closed]

/-- A command byte fixes the response behind the leading bytes of its transaction. -/
theorem State.commandByte_of_ready (ready : s.PortReady) (response : State → Response) :
    s.commandByte response = s.setTransaction (.opened s.leading (response s)) := by
  have awake : s.awake = true := ready.1
  have deaf := State.not_deaf_of_ready ready
  have short := State.closeShort_of_ready ready
  refine (if_pos (by simp [awake, deaf])).trans ?_
  rcases ready.2 with closed | ⟨leading, opened⟩
  · have leading : s.leading = s.leadingBytes := by simp only [State.leading, closed]; rfl
    rw [closed, short, State.atRise_of_closed closed, leading]
  · have leading' : s.leading = leading := by simp only [State.leading, opened]
    rw [opened, leading']

theorem exec_take_of_ready (ready : s.PortReady) :
    exec .take s = .next (s.setTransaction
      (.opened s.leading (.completion s.client.completions.head?))) :=
  congrArg Host.Outcome.next (State.commandByte_of_ready ready _)

theorem exec_events_of_ready (ready : s.PortReady) :
    exec .events s =
      .next (s.setTransaction (.opened s.leading (.event s.client.nextEvent))) :=
  congrArg Host.Outcome.next (State.commandByte_of_ready ready _)

/-! ## The rise of CSn of a TAKE and of an EVENTS (R183, R186) -/

variable {leading : List Byte} {clocked : Nat}

theorem State.closeShort_of_completion {r : Option CompletionRecord}
    (opened : s.client.transaction = .opened leading (.completion r)) : s.closeShort = s.atRise := by
  simp only [State.closeShort, State.atRise, State.onClient, State.setTransaction,
    ClientPort.eventsShort, opened]

theorem exec_takeEnd_of_opened {r : Option CompletionRecord} (awake : s.awake = true)
    (opened : s.client.transaction = .opened leading (.completion r)) :
    exec (.takeEnd clocked) s = .next (s.endTake clocked) := by
  have hears : ¬ s.client.transaction.deaf = true := by simp [opened, Transaction.deaf]
  have before : ∀ response, s.beforeEnd response = s := fun response => by
    simp only [State.beforeEnd, opened]
  refine congrArg Host.Outcome.next ((if_neg hears).trans ((if_pos awake).trans ?_))
  rw [before]

theorem State.endTake_of_record {r : CompletionRecord}
    (opened : s.client.transaction = .opened leading (.completion (some r))) :
    s.endTake clocked =
      if 3 + r.bytes.length ≤ clocked then s.atRise.removeCompletion r else s.atRise := by
  rw [← State.closeShort_of_completion opened]
  simp only [State.endTake, opened]
  rfl

theorem State.endTake_of_marker
    (opened : s.client.transaction = .opened leading (.completion none)) :
    s.endTake clocked = s.atRise := by
  rw [← State.closeShort_of_completion opened]
  simp only [State.endTake, opened]

theorem exec_eventsEnd_of_opened {hold : EventHold} (awake : s.awake = true)
    (opened : s.client.transaction = .opened leading (.event hold)) :
    exec (.eventsEnd clocked) s =
      .next (if (Response.event hold).needed ≤ clocked then
        (s.onClient fun c => c.removeHeld hold).setTransaction .closed
      else s.closeShort) := by
  have hears : ¬ s.client.transaction.deaf = true := by simp [opened, Transaction.deaf]
  have before : ∀ response, s.beforeEnd response = s := fun response => by
    simp only [State.beforeEnd, opened]
  refine congrArg Host.Outcome.next ((if_neg hears).trans ((if_pos awake).trans ?_))
  rw [before]
  simp only [State.endEvents, opened]

theorem EventRecord.bytes_length (r : EventRecord) : r.bytes.length = 6 := by
  have subject : r.subject.bytes.length = 3 := by
    cases r.subject <;> rfl
  simp [EventRecord.bytes, subject]

theorem needed_ordinary (r : EventRecord) : (Response.event (.ordinary r)).needed = 9 := by
  rw [Response.needed, Response.bytes, EventRecord.bytes_length]

theorem needed_dropped (held waiting : Dropped) :
    (Response.event (.dropped held waiting)).needed = 9 := rfl

theorem State.beforeEnd_of_ready (ready : s.PortReady) (response : State → Response) :
    s.beforeEnd response = s.commandByte response := by
  rcases ready.2 with closed | ⟨leading, opened⟩
  · simp only [State.beforeEnd, closed]
  · simp only [State.beforeEnd, opened]

/-- An end with no command byte recorded is the end after that byte (log 7). -/
theorem exec_takeEnd_after_byte (ready : s.PortReady) :
    exec (.takeEnd clocked) s =
      exec (.takeEnd clocked) (s.setTransaction
        (.opened s.leading (.completion s.client.completions.head?))) := by
  have hears : ¬ s.client.transaction.deaf = true := by simp [State.not_deaf_of_ready ready]
  have after := exec_takeEnd_of_opened (clocked := clocked)
    (s := s.setTransaction (.opened s.leading (.completion s.client.completions.head?)))
    ready.1 rfl
  rw [after]
  refine congrArg Host.Outcome.next ((if_neg hears).trans ((if_pos ready.1).trans ?_))
  rw [State.beforeEnd_of_ready ready, State.commandByte_of_ready ready]

theorem exec_eventsEnd_after_byte (ready : s.PortReady) :
    exec (.eventsEnd clocked) s =
      exec (.eventsEnd clocked) (s.setTransaction
        (.opened s.leading (.event s.client.nextEvent))) := by
  have hears : ¬ s.client.transaction.deaf = true := by simp [State.not_deaf_of_ready ready]
  have after := exec_eventsEnd_of_opened (clocked := clocked)
    (s := s.setTransaction (.opened s.leading (.event s.client.nextEvent))) ready.1 rfl
  rw [after]
  refine congrArg Host.Outcome.next ((if_neg hears).trans ((if_pos ready.1).trans ?_))
  rw [State.beforeEnd_of_ready ready, State.commandByte_of_ready ready]
  rfl

end

/-! ## The event queue (R184 to R186) -/

section
variable {kind : EventKind} {subject : Subject} {detail : Detail}

/-- A record of the kind and subject given. -/
def EventRecord.Alike (kind : EventKind) (subject : Subject) (r : EventRecord) : Prop :=
  r.kind = kind ∧ r.subject = subject

theorem mergeEvent_of_first {pre post : List EventRecord} {r : EventRecord}
    (alike : r.Alike kind subject) (first : ∀ x, x ∈ pre → ¬ x.Alike kind subject) :
    mergeEvent kind subject detail (pre ++ r :: post) =
      some (pre ++ { r with detail := detail, repeats := min (r.repeats + 1) 255 } :: post) := by
  induction pre with
  | nil => exact if_pos alike
  | cons x pre ih =>
    have later := ih fun y hy => first y (List.mem_cons_of_mem x hy)
    rw [List.cons_append]
    exact (if_neg (first x List.mem_cons_self)).trans (by rw [later]; rfl)

theorem mergeEvent_of_none {l : List EventRecord}
    (none : ∀ x, x ∈ l → ¬ x.Alike kind subject) :
    mergeEvent kind subject detail l = Option.none := by
  induction l with
  | nil => rfl
  | cons x rest ih =>
    have later := ih fun y hy => none y (List.mem_cons_of_mem x hy)
    exact (if_neg (none x List.mem_cons_self)).trans (by rw [later]; rfl)

/-- The records that a transaction holds at the head of the queue (R186). -/
def ClientPort.kept (c : ClientPort) : Nat := if c.holdsHead then 1 else 0

theorem ClientPort.raise_eq (c : ClientPort) :
    c.raise kind subject detail =
      match mergeEvent kind subject detail (c.events.drop c.kept) with
      | some rest => { c with events := c.events.take c.kept ++ rest }
      | none =>
        if c.events.length < 16 then
          { c with events := c.events ++ [⟨kind, subject, detail, 1⟩] }
        else c.dropEvent kind := rfl

theorem ClientPort.holdsHead_iff (c : ClientPort) :
    c.holdsHead = true ↔ ∃ leading r, c.transaction = .opened leading (.event (.ordinary r)) := by
  unfold ClientPort.holdsHead
  split
  · rename_i leading r opened
    exact iff_of_true rfl ⟨leading, r, opened⟩
  · rename_i other
    exact iff_of_false (by simp) fun ⟨leading, r, opened⟩ => other leading r opened

theorem ClientPort.raise_of_alike (c : ClientPort) {pre post : List EventRecord} {r : EventRecord}
    (events : c.events = pre ++ r :: post) (alike : r.Alike kind subject)
    (kept : c.kept ≤ pre.length) (first : ∀ x, x ∈ pre.drop c.kept → ¬ x.Alike kind subject) :
    c.raise kind subject detail = { c with
      events := pre ++ { r with detail := detail, repeats := min (r.repeats + 1) 255 } ::
        post } := by
  have rest : c.events.drop c.kept = pre.drop c.kept ++ r :: post := by
    rw [events, List.drop_append_of_le_length kept]
  have head : c.events.take c.kept = pre.take c.kept := by
    rw [events, List.take_append_of_le_length kept]
  rw [ClientPort.raise_eq, rest, mergeEvent_of_first alike first, head]
  simp only [← List.append_assoc, List.take_append_drop]

theorem ClientPort.raise_of_new (c : ClientPort)
    (new : ∀ x, x ∈ c.events.drop c.kept → ¬ x.Alike kind subject) :
    c.raise kind subject detail =
      if c.events.length < 16 then { c with events := c.events ++ [⟨kind, subject, detail, 1⟩] }
      else c.dropEvent kind := by
  rw [ClientPort.raise_eq, mergeEvent_of_none new]

theorem Dropped.add_eq {before after : Dropped} (first : before.count = 0 → after = ⟨1, some kind⟩)
    (more : before.count ≠ 0 → after = ⟨min (before.count + 1) 255, before.first⟩) :
    before.add kind = after := by
  by_cases zero : before.count = 0
  · rw [first zero]
    exact if_pos zero
  · rw [more zero]
    exact if_neg zero

theorem ClientPort.dropEvent_of_held {c : ClientPort} {leading : List Byte}
    {record waiting : Dropped}
    (opened : c.transaction = .opened leading (.event (.dropped record waiting))) :
    c.dropEvent kind =
      { c with transaction := .opened leading (.event (.dropped record (waiting.add kind))) } := by
  simp only [ClientPort.dropEvent, opened]

theorem ClientPort.dropEvent_of_free {c : ClientPort}
    (free : ∀ leading record waiting,
      c.transaction ≠ .opened leading (.event (.dropped record waiting))) :
    c.dropEvent kind = { c with dropped := c.dropped.add kind } := by
  unfold ClientPort.dropEvent
  split
  · rename_i leading record waiting opened
    exact absurd opened (free leading record waiting)
  · rfl

theorem mergeHeld_of_none {r : EventRecord} {rest : List EventRecord}
    (none : ∀ x, x ∈ rest → ¬ x.Alike r.kind r.subject) : mergeHeld (r :: rest) = r :: rest := by
  have missing : (rest.find? fun x => decide (x.kind = r.kind) && decide (x.subject = r.subject)) =
      Option.none :=
    List.find?_eq_none.mpr fun x hx => by simpa [EventRecord.Alike] using none x hx
  simp only [mergeHeld, missing]

theorem mergeHeld_of_one {r x : EventRecord} {pre post : List EventRecord}
    (alike : x.Alike r.kind r.subject)
    (others : ∀ y, y ∈ pre ++ post → ¬ y.Alike r.kind r.subject) :
    mergeHeld (r :: (pre ++ x :: post)) =
      { r with detail := x.detail, repeats := min (r.repeats + x.repeats) 255 } ::
        (pre ++ post) := by
  have differ : ∀ y, y ∈ pre ++ post →
      (decide (y.kind = r.kind) && decide (y.subject = r.subject)) = false := fun y hy => by
    simpa [EventRecord.Alike] using others y hy
  have same : (decide (x.kind = r.kind) && decide (x.subject = r.subject)) = true := by
    simpa [EventRecord.Alike] using alike
  have found : ((pre ++ x :: post).find? fun y =>
      decide (y.kind = r.kind) && decide (y.subject = r.subject)) = some x := by
    rw [List.find?_append, List.find?_eq_none.mpr fun y hy => by
        simp [differ y (List.mem_append_left _ hy)],
      Option.none_or]
    exact List.find?_cons_of_pos (p := fun y : EventRecord =>
      decide (y.kind = r.kind) && decide (y.subject = r.subject)) same
  have left : ((pre ++ x :: post).filter fun y =>
      !(decide (y.kind = r.kind) && decide (y.subject = r.subject))) = pre ++ post := by
    rw [List.filter_append, List.filter_cons_of_neg (by simp [same]), ← List.filter_append,
      List.filter_eq_self]
    exact fun y hy => by rw [differ y hy]; rfl
  simp only [mergeHeld, found, left]

end

/-- Settles O56: the command bytes, the two rises of CSn, and the merges of the event queue. -/
theorem takeAndEventsRemoveTheirRecord : Obligations.TakeAndEventsRemoveTheirRecord := by
  refine ⟨fun s ready => ⟨exec_take_of_ready ready, exec_events_of_ready ready⟩, ?_, ?_, ?_, ?_⟩
  · intro clocked leading r s awake opened
    rw [exec_takeEnd_of_opened awake opened, State.endTake_of_record opened]
    refine ⟨fun short => ?_, fun whole => ?_⟩
    · rw [if_neg (Nat.not_le.mpr short)]
      rfl
    · rw [if_pos whole]
      refine ⟨_, rfl, ?_⟩
      cases r with
      | write tag result v phase =>
        refine ⟨rfl, ?_, ?_, rfl, rfl, rfl, rfl, rfl⟩
        · rintro _ _ _ _ ⟨⟩
          exact ⟨rfl, fun i => vector_get_map _ _ _⟩
        · rintro _ _ _ _ _ ⟨⟩
      | read tag result v phase d =>
        refine ⟨rfl, ?_, ?_, rfl, rfl, rfl, rfl, rfl⟩
        · rintro _ _ _ _ ⟨⟩
        · rintro _ _ _ _ _ ⟨⟩
          exact ⟨rfl, fun i => vector_get_map _ _ _⟩
  · intro clocked leading s awake
    refine ⟨fun r opened => ?_, fun held waiting opened => ?_, fun opened => ?_, fun opened => ?_,
      fun idle t => ?_⟩
    · rw [exec_eventsEnd_of_opened awake opened, needed_ordinary]
      refine ⟨fun whole => ?_, fun short => ?_⟩
      · rw [if_pos whole]
        rfl
      · rw [if_neg (Nat.not_le.mpr short)]
        simp only [State.closeShort, State.onClient, State.setTransaction,
          ClientPort.eventsShort, opened]
    · rw [exec_eventsEnd_of_opened awake opened, needed_dropped]
      refine ⟨fun whole => ?_, fun short => ?_⟩
      · rw [if_pos whole]
        rfl
      · rw [if_neg (Nat.not_le.mpr short)]
        simp only [State.closeShort, State.onClient, State.setTransaction,
          ClientPort.eventsShort, opened]
        rfl
    · rw [exec_takeEnd_of_opened awake opened, State.endTake_of_marker opened]
    · rw [exec_eventsEnd_of_opened awake opened]
      split
      · rfl
      · simp only [State.closeShort, State.onClient, State.setTransaction,
          ClientPort.eventsShort, opened]
        rfl
    · have ready : s.PortReady := ⟨awake, idle.imp_right fun opened => ⟨leading, opened⟩⟩
      refine ⟨fun taken => ?_, fun taken => ?_⟩
      · rw [exec_take_of_ready ready] at taken
        rw [exec_takeEnd_after_byte ready, Host.Outcome.next.inj taken]
      · rw [exec_events_of_ready ready] at taken
        rw [exec_eventsEnd_after_byte ready, Host.Outcome.next.inj taken]
  · intro kind subject detail c held alike
    have keeps : held → c.kept = 1 := fun h => if_pos (c.holdsHead_iff.mpr h)
    have drops : ¬ held → c.kept = 0 := fun h => if_neg (mt c.holdsHead_iff.mp h)
    refine ⟨fun pre r post events same behind before after => ?_, fun before after => ?_⟩
    · refine c.raise_of_alike events same ?_ ?_
      · by_cases holds : held
        · rw [keeps holds]
          exact List.length_pos_iff.mpr (behind holds)
        · rw [drops holds]
          exact Nat.zero_le _
      · by_cases holds : held
        · rw [keeps holds]
          exact after holds
        · rw [drops holds]
          exact before holds
    · have new : ∀ x, x ∈ c.events.drop c.kept → ¬ x.Alike kind subject := by
        by_cases holds : held
        · rw [keeps holds]
          exact after holds
        · rw [drops holds]
          exact before holds
      rw [c.raise_of_new new]
      refine ⟨fun room => if_pos room, fun full before after first more => ?_⟩
      rw [if_neg (Nat.not_lt.mpr full), ← Dropped.add_eq first more]
      refine ⟨fun leading record opened => ClientPort.dropEvent_of_held opened, ?_⟩
      rintro free rfl
      exact ClientPort.dropEvent_of_free free
  · intro r rest alike
    refine ⟨rfl, mergeHeld_of_none, fun pre x post split same others => ?_⟩
    rw [split]
    exact mergeHeld_of_one same others

end Sys2Proof.Machine
end

section
/-! PROOF. Transactions: their opening and closing, SDO, the layouts and codes of what they return,
and the bytes that make the command (O52). -/

namespace Sys2Proof.Machine

/-! ## Opening and closing (R178, R179, R188) -/

section
variable {s : State}

theorem exec_transactionOpen_of_ready (ready : s.PortReady) :
    exec .transactionOpen s = .next (s.setTransaction (.opened s.leadingBytes .silent)) := by
  refine congrArg Host.Outcome.next ((if_pos ready.1).trans ?_)
  rw [State.closeShort_of_ready ready]
  rfl

theorem exec_status_of_ready (ready : s.PortReady) :
    exec .status s = .next (s.setTransaction (.opened s.leading (.statusBlock s.statusBlock))) :=
  congrArg Host.Outcome.next
    ((if_neg Bool.false_ne_true).trans (State.commandByte_of_ready ready _))

theorem State.closeShort_of_statusBlock {leading block : List Byte}
    (opened : s.client.transaction = .opened leading (.statusBlock block)) :
    s.closeShort = s.atRise := by
  simp only [State.closeShort, State.atRise, State.onClient, State.setTransaction,
    ClientPort.eventsShort, opened]

theorem exec_badRequest_of_ready {packet : List Byte} (ready : s.PortReady)
    (malformed : packetWellFormed packet = false) :
    exec (.badRequest packet) s =
      .next (s.atRise.record (packetTag packet) .badRequest).settle := by
  refine congrArg Host.Outcome.next ((State.closing_of_ready ready _).trans ?_)
  rw [if_neg (Bool.eq_false_iff.mp malformed)]

/-- The transactions that the part takes no bytes of (R178, R189). -/
theorem Transaction.deaf_iff (t : Transaction) :
    t.deaf = true ↔ t = .abandoned ∨ t = .ignored := by
  cases t <;> simp [Transaction.deaf]

theorem State.commandByte_of_deaf (deaf : s.client.transaction.deaf = true)
    (response : State → Response) : s.commandByte response = s :=
  if_neg (by simp [deaf])

/-- A command that ends a transaction of which the part takes no bytes only closes it (R178,
R189). -/
theorem State.closing_of_deaf (deaf : s.client.transaction.deaf = true) (act : State → State) :
    s.closing act = s.atRise :=
  if_pos deaf

theorem State.closeShort_of_deaf (deaf : s.client.transaction.deaf = true) :
    s.closeShort = s.atRise := by
  rcases (Transaction.deaf_iff _).mp deaf with held | held <;>
    simp only [State.closeShort, State.atRise, State.onClient, State.setTransaction,
      ClientPort.eventsShort, held]

theorem exec_of_deaf (deaf : s.client.transaction.deaf = true) (tag : Byte) (block : BitVec 16)
    (d : Data) (clocked : Nat) (bytes packet : List Byte) :
    ∀ c ∈ [Instr.submitWrite tag block d, .submitReadLocal tag block, .submitReadFresh tag block,
      .submitAbort tag, .badRequest packet, .unknownCommand bytes, .takeEnd clocked,
      .eventsEnd clocked, .status true, .restart], exec c s = .next s.atRise := by
  have closes : ∀ act, Host.Outcome.next (s.closing act) =
      (.next s.atRise : Host.Outcome State Fault Refusal) :=
    fun act => congrArg _ (State.closing_of_deaf deaf act)
  simp only [List.forall_mem_cons]
  exact ⟨closes _, closes _, closes _, closes _, closes _, closes _,
    congrArg Host.Outcome.next (if_pos deaf), congrArg Host.Outcome.next (if_pos deaf),
    congrArg Host.Outcome.next (State.closeShort_of_deaf deaf), closes _, nofun⟩

/-! ## SDO (R178, R189) -/

theorem State.sdo_of_deaf (deaf : s.client.transaction.deaf = true) (released : s.released = true)
    (n : Nat) : s.sdo n = if s.client.transaction = .ignored then some 0xFF#8 else none := by
  rcases (Transaction.deaf_iff _).mp deaf with held | held <;>
    simp [State.sdo, held, released]

theorem State.sdo_of_opened {leading : List Byte} {response : Response} (n : Nat)
    (released : s.released = true) (opened : s.client.transaction = .opened leading response) :
    s.sdo n = some (((leading ++ response.bytes)[n]?).getD 0xFF#8) := by
  simp only [State.sdo, opened, released, if_true]

theorem State.sdo_of_closed (n : Nat) (closed : s.client.transaction = .closed) :
    s.sdo n = none := by
  simp only [State.sdo, closed]

/-! ## The status byte and ATTNn (R187, R191) -/

theorem ClientPort.completionPending_iff (c : ClientPort) :
    c.completionPending = true ↔ c.completions ≠ [] := by
  simp [ClientPort.completionPending]

theorem ClientPort.eventPending_iff (c : ClientPort) :
    c.eventPending = true ↔ c.events ≠ [] ∨ 0 < c.dropped.count := by
  simp [ClientPort.eventPending]

theorem State.attention_iff :
    s.attention = true ↔ s.released = true ∧ (s.client.completions ≠ [] ∨ s.client.events ≠ [] ∨
      0 < s.client.dropped.count) := by
  rw [State.attention, Bool.and_eq_true, Bool.or_eq_true, ClientPort.completionPending_iff,
    ClientPort.eventPending_iff]

/-- The fields of the status byte do not overlap. -/
theorem statusFields_toNat (p : Phase) (r : FaultReason) (completion event : Bool) :
    ((p.code <<< 5) ||| (if completion then 0x10#8 else 0#8) ||| (if event then 0x08#8 else 0#8)
        ||| (r.code <<< 1)).toNat =
      32 * p.code.toNat + 16 * completion.toNat + 8 * event.toNat + 2 * r.code.toNat := by
  cases p <;> cases r <;> cases completion <;> cases event <;> rfl

theorem State.statusByte_toNat :
    s.statusByte.toNat = 32 * s.member.phase.code.toNat
      + 16 * (if s.client.completions = [] then 0 else 1)
      + 8 * (if s.client.events = [] ∧ s.client.dropped.count = 0 then 0 else 1)
      + 2 * s.member.faultReason.code.toNat := by
  have completion : s.client.completionPending.toNat =
      if s.client.completions = [] then 0 else 1 := by
    simp only [Bool.toNat, Bool.cond_eq_ite, ClientPort.completionPending_iff, ite_not]
  have event : s.client.eventPending.toNat =
      if s.client.events = [] ∧ s.client.dropped.count = 0 then 0 else 1 := by
    have none : ¬ (s.client.events = [] ∧ s.client.dropped.count = 0) ↔
        s.client.eventPending = true := by
      rw [ClientPort.eventPending_iff, Nat.pos_iff_ne_zero, Classical.not_and_iff_not_or_not]
    simp only [Bool.toNat, Bool.cond_eq_ite, ← none, ite_not]
  rw [State.statusByte, statusFields_toNat, completion, event]

/-! ## The status block (R188, R191) -/

/-- Bytes 0..17 of the status block. -/
def State.statusHead (s : State) : List Byte :=
  [s.member.phase.code, s.member.faultReason.code, byteOf s.groupSize, byteOf s.quorum,
    byteOf s.own.val] ++ bytes32 s.store.clock ++ [byteOf s.media.spares.length] ++
  bytes16 (BitVec.ofNat 16 s.media.retired.length) ++
  [byteOf s.store.staging.length, byteOf s.media.scrub.length, byteOf s.repair.list.length,
    byteOf s.repair.cursor.range] ++ bytes16 s.line.discards

theorem State.statusHead_length : s.statusHead.length = 18 := rfl

theorem State.statusBlock_eq :
    s.statusBlock = s.statusHead ++ (List.finRange 8).flatMap s.peerBytes := rfl

/-- A list of parts of equal length is read back part by part. -/
theorem take_drop_flatMap {α β : Type} {f : α → List β} {k : Nat} (parts : ∀ a, (f a).length = k)
    (l : List α) (i : Nat) (h : i < l.length) : ((l.flatMap f).drop (k * i)).take k = f l[i] := by
  induction l generalizing i with
  | nil => exact absurd h (Nat.not_lt_zero i)
  | cons a l ih =>
    cases i with
    | zero => exact List.take_left' (parts a)
    | succ i =>
      rw [List.flatMap_cons, Nat.mul_succ, Nat.add_comm, ← List.drop_drop,
        List.drop_left' (parts a)]
      exact ih i (Nat.lt_of_succ_lt_succ h)

theorem State.statusBlock_peer (n : StationNo) :
    (s.statusBlock.drop (18 + 6 * n.val)).take 6 = s.peerBytes n := by
  have parts : ∀ m, (s.peerBytes m).length = 6 := fun _ => rfl
  have part := take_drop_flatMap parts (List.finRange 8) n.val (by simp)
  rw [State.statusBlock_eq, ← List.drop_drop, List.drop_left' State.statusHead_length, part]
  simp

theorem State.peerBytes_eq (n : StationNo) :
    s.peerBytes n =
      [match (s.peer n).state with
        | .unheard => 0#8
        | .present => 1#8
        | .silent => 2#8
        | .conflict => 3#8,
      match (s.peer n).reported with
        | none => 0#8
        | some .listening => 1#8
        | some .catchingUp => 2#8
        | some .online => 3#8
        | some .isolated => 4#8] ++
      bytes32 (if n = s.own ∧ (s.peer n).state = .present then s.store.clock
        else (s.peer n).clock) := by
  refine congrArg₂ (· ++ ·) (congrArg₂ (fun state reported => [state, reported]) ?_ ?_) rfl
  · cases (s.peer n).state <;> rfl
  · rcases (s.peer n).reported with _ | _ | _ | _ | _ <;> rfl

end

/-! ## The bytes of SDI and the command they make (R178, R180, R181) -/

theorem wholeBytes_bitsOfBytes (bytes : List Byte) (rest : List Bool) (short : rest.length < 8) :
    wholeBytes (bitsOfBytes bytes ++ rest) = bytes := by
  have length : (wholeBytes (bitsOfBytes bytes ++ rest)).length = bytes.length := by
    rw [wholeBytes_length, List.length_append, length_bitsOfBytes]
    omega
  refine List.ext_getElem length fun i h₁ h₂ => ?_
  have split : bytes = bytes.take i ++ bytes[i] :: bytes.drop (i + 1) := by
    rw [List.getElem_cons_drop, List.take_append_drop]
  have placed : bitsOfBytes bytes ++ rest = bitsOfBytes (bytes.take i) ++
      (bitsOf bytes[i] ++ (bitsOfBytes (bytes.drop (i + 1)) ++ rest)) := by
    conv_lhs => rw [split]
    simp only [bitsOfBytes_append, bitsOfBytes_cons, List.append_assoc]
  simp only [wholeBytes, List.getElem_map, List.getElem_range, placed]
  exact fieldAt_bitsOf _ _ _ (by simp; omega)

theorem requestOf_write (tag n1 n0 : Byte) (d : Data) (more : List Byte) :
    requestOf (3#8 :: tag :: n1 :: n0 :: (d.toList ++ more)) = .submitWrite tag (n1 ++ n0) d := by
  have data : dataOf ((d.toList ++ more).take 128) = some d := by
    rw [List.take_left' (by simp), dataOf_toList]
  show (match dataOf ((d.toList ++ more).take 128) with
    | some d => Instr.submitWrite tag (word16 n1 n0) d
    | none => .badRequest (3#8 :: tag :: n1 :: n0 :: (d.toList ++ more))) = _
  rw [data]
  rfl

theorem dataOf_of_short {bytes : List Byte} (short : bytes.length < 128) : dataOf bytes = none :=
  dif_neg (by simp; omega)

/-- A malformed packet has no code whose packet would be all there. -/
theorem ne_of_malformed {code known : Byte} {rest : List Byte} {n : Nat}
    (malformed : packetWellFormed (code :: rest) = false) (length : requestLength known = some n)
    (whole : n ≤ rest.length + 1) : code ≠ known := by
  rintro rfl
  exact absurd malformed (by simp [packetWellFormed, length, whole])

theorem requestOf_malformed {packet : List Byte} (malformed : packetWellFormed packet = false) :
    requestOf packet = .badRequest packet := by
  match packet, malformed with
  | [], _ => rfl
  | [code], _ => rfl
  | [code, tag], malformed =>
    exact if_neg (ne_of_malformed malformed (known := 4#8) rfl (by simp))
  | [code, tag, n1], malformed =>
    exact if_neg (ne_of_malformed malformed (known := 4#8) rfl (by simp))
  | code :: tag :: n1 :: n0 :: more, malformed =>
    have one : code ≠ 1#8 := ne_of_malformed malformed rfl (by simp)
    have two : code ≠ 2#8 := ne_of_malformed malformed rfl (by simp)
    have four : code ≠ 4#8 := ne_of_malformed malformed rfl (by simp)
    refine (if_neg one).trans ((if_neg two).trans ?_)
    by_cases three : code = 3#8
    · subst three
      have short : more.length < 128 := by
        simpa [packetWellFormed, requestLength] using malformed
      have data : dataOf (more.take 128) = none :=
        dataOf_of_short (by rw [List.length_take]; omega)
      rw [if_pos rfl, data]
    · exact (if_neg three).trans (if_neg four)

theorem ne_of_knownCommand {code known : Byte} (unknown : knownCommand code = false)
    (h : knownCommand known = true) : code ≠ known := by
  rintro rfl
  exact absurd h (by simp [unknown])

theorem command_of_unknown {code : Byte} (more : List Byte) (unknown : knownCommand code = false) :
    commandAtByte code = none ∧ commandAtEnd (code :: more) = .unknownCommand (code :: more) := by
  have one : code ≠ 1#8 := ne_of_knownCommand unknown rfl
  have two : code ≠ 2#8 := ne_of_knownCommand unknown rfl
  have three : code ≠ 3#8 := ne_of_knownCommand unknown rfl
  have four : code ≠ 4#8 := ne_of_knownCommand unknown rfl
  have five : code ≠ 5#8 := ne_of_knownCommand unknown rfl
  exact ⟨(if_neg two).trans ((if_neg three).trans (if_neg four)),
    (if_neg one).trans ((if_neg two).trans ((if_neg three).trans ((if_neg four).trans
      (if_neg five))))⟩

/-- Settles O52: the opening and the closing of a transaction, what SDO shows of it, the layouts and
codes, and the commands that the bytes of SDI make. -/
theorem transactionsOpenAndClose : Obligations.TransactionsOpenAndClose := by
  refine ⟨fun s ready => ⟨exec_transactionOpen_of_ready ready, exec_status_of_ready ready,
    congrArg Host.Outcome.next (State.closeShort_of_ready ready),
    fun bytes => congrArg Host.Outcome.next (State.closing_of_ready ready id),
    fun packet => exec_badRequest_of_ready ready⟩, ?_, ?_, ?_, ?_, ?_, ?_,
    wholeBytes_bitsOfBytes, ?_, ?_, rfl, fun code more => command_of_unknown more⟩
  · intro s
    refine ⟨fun held => ?_, fun released restarting => ?_, fun deaf => ?_, fun leading block opened =>
      congrArg Host.Outcome.next (State.closeShort_of_statusBlock opened), fun _ => rfl,
      fun _ => rfl, fun _ _ n => State.sdo_of_opened n, fun closed n => State.sdo_of_closed n closed⟩
    · refine congrArg Host.Outcome.next ((if_neg (by simp [State.awake, held])).trans ?_)
      rw [if_neg (by simp [held])]
      rfl
    · refine congrArg Host.Outcome.next ((if_neg (by simp [State.awake, restarting])).trans ?_)
      rw [if_pos released]
      rfl
    · have deaf := (Transaction.deaf_iff _).mpr deaf
      have kept : ∀ response, Host.Outcome.next (s.commandByte response) =
          (.next s : Host.Outcome State Fault Refusal) :=
        fun response => congrArg _ (State.commandByte_of_deaf deaf response)
      exact ⟨fun n released => State.sdo_of_deaf deaf released n, kept _, kept _,
        (congrArg Host.Outcome.next (if_neg Bool.false_ne_true)).trans (kept _), exec_of_deaf deaf⟩
  · intro s phase fault
    have phaseCode : phase = s.member.phase.code.toNat := by
      simp only [phase]
      cases s.member.phase <;> rfl
    have faultCode : fault = s.member.faultReason.code.toNat := by
      simp only [fault]
      cases s.member.faultReason <;> rfl
    rw [phaseCode, faultCode, BitVec.ofNat_toNat, BitVec.ofNat_toNat, BitVec.setWidth_eq,
      BitVec.setWidth_eq]
    exact ⟨State.statusByte_toNat, State.attention_iff, rfl, rfl,
      fun n => (State.statusBlock_peer n).trans (State.peerBytes_eq n)⟩
  · intro tag result v phase d
    exact ⟨rfl, rfl⟩
  · intro kind detail count n b p
    exact ⟨rfl, rfl, rfl, rfl, rfl, rfl⟩
  · exact ⟨rfl, rfl, rfl, fun _ => rfl, fun _ => rfl, fun _ _ => rfl, fun _ => rfl⟩
  · exact ⟨rfl, rfl, rfl, rfl, rfl⟩
  · intro tag n1 n0 d more
    refine ⟨rfl, rfl, ?_, ?_, rfl, rfl, rfl, rfl, rfl, rfl, rfl⟩
    · rw [List.append_assoc]
      exact requestOf_write tag n1 n0 d more
    · rcases more with _ | ⟨_, _ | ⟨_, _⟩⟩ <;> rfl
  · exact fun packet malformed => requestOf_malformed malformed

end Sys2Proof.Machine
end
